-- ==== Sys2Proof/Word.lean ====
section
/-! DEFINITION. The bit-vector types of the block (00_scope R6): host registers are 32 bits wide, the preamble
fields and two descriptor registers 16, frame-buffer cells and sink units 8. -/

namespace Sys2Proof

/-- A frame-buffer cell or a unit of the output stream. -/
abbrev Byte := BitVec 8

/-- A 16-bit unit: a preamble field, `DESC_TYPE`, `DESC_LENCODE`. -/
abbrev Half := BitVec 16

/-- A host register or a command word. -/
abbrev Word := BitVec 32

end Sys2Proof
end

