-- ==== Sys2Proof/Syntax.lean ====
section
/-! DEFINITION. The commands of the block: one constructor per row of spec/opcode_table.json (30_encoding R72),
the codec operand of OPEN, and the names under which the decoder rejects a word (R74). -/

namespace Sys2Proof

/-- `codec_kind` (10_state R25, 60_exceptions D9): the three codecs with an inspector, and the codes 3 to 7, which
OPEN accepts and which dispatch rejects (30_encoding R76). -/
inductive Codec where
  | ac3
  | dts
  | adtsAac
  | unsupported (code : BitVec 3)
deriving DecidableEq, Repr

/-- The five commands. Only OPEN has immediate operands (30_encoding R71). -/
inductive Instr where
  | openSession (be : Bool) (codec : Codec)
  | closeSession
  | inspect
  | encapsulate
  | submit
deriving DecidableEq, Repr

/-- Why a command word is `ILLEGAL` (30_encoding R74). -/
inductive DecodeError where
  /-- `OP` is `0x0` or `0x6` to `0xF`. -/
  | reservedOpcode (op : BitVec 4)
  /-- `OP` names a command, and a must-be-zero field is not zero. -/
  | mustBeZero (op : BitVec 4)
deriving DecidableEq, Repr

end Sys2Proof
end

