-- ==== Sys2Proof/WellFormed.lean ====
section
/-! DEFINITION. Which command terms stand for a command word: the codec code of an unsupported codec must be
one that names no supported codec (30_encoding R76: the values 3 to 7). -/

namespace Sys2Proof

/-- The codes 0, 1 and 2 name AC3, DTS and ADTS_AAC, so `unsupported` holds 3 to 7 (10_state R25). -/
def Codec.wellFormed : Codec → Bool
  | .ac3 => true
  | .dts => true
  | .adtsAac => true
  | .unsupported k => decide (3 ≤ k.toNat)

/-- A command term is well formed when its operands are. -/
def Instr.wellFormed : Instr → Bool
  | .openSession _ c => c.wellFormed
  | .closeSession => true
  | .inspect => true
  | .encapsulate => true
  | .submit => true

end Sys2Proof
end

