-- ==== Sys2Proof/Decode.lean ====
section
/-! DEFINITION. The decoder of command words (30_encoding R70 to R76), total on every 32-bit word and rejecting by
name, and after it the encoder, from the same table. A command is one 32-bit word written to `CMD`; it has no bytes
in memory, so no byte order enters. -/

namespace Sys2Proof

/-- The codec a 3-bit code names (10_state R25). -/
def Codec.ofCode (k : BitVec 3) : Codec :=
  if k = 0#3 then .ac3 else if k = 1#3 then .dts else if k = 2#3 then .adtsAac else .unsupported k

/-- The 3-bit code of a codec (10_state R25). -/
def Codec.code : Codec → BitVec 3
  | .ac3 => 0#3
  | .dts => 1#3
  | .adtsAac => 2#3
  | .unsupported k => k

/-- `OP`, bits 3:0 of a command word (30_encoding R70). -/
def opField (w : Word) : BitVec 4 := w.extractLsb' 0 4

/-- The name under which a word that is no command is rejected (30_encoding R74). -/
def illegalReason (w : Word) : DecodeError :=
  if 1 ≤ (opField w).toNat ∧ (opField w).toNat ≤ 5 then .mustBeZero (opField w) else .reservedOpcode (opField w)

/-- `decode` of 30_encoding R73, in its order of tests. -/
def decode (w : Word) : Except DecodeError Instr :=
  if w &&& 0xFFFFF0FF#32 = 0x00000001#32 then
    .ok (.openSession (w.getLsbD 8) (Codec.ofCode (w.extractLsb' 9 3)))
  else if w = 0x00000002#32 then .ok .closeSession
  else if w = 0x00000003#32 then .ok .inspect
  else if w = 0x00000004#32 then .ok .encapsulate
  else if w = 0x00000005#32 then .ok .submit
  else .error (illegalReason w)

/-- The command word of a command: OPEN is `0x1 | (be << 8) | (codec << 9)` (42_session R150), the others are
constants (30_encoding R72). -/
def encode : Instr → Word
  | .openSession be c =>
    0x00000001#32 ||| ((BitVec.ofBool be).setWidth 32 <<< 8) ||| (c.code.setWidth 32 <<< 9)
  | .closeSession => 0x00000002#32
  | .inspect => 0x00000003#32
  | .encapsulate => 0x00000004#32
  | .submit => 0x00000005#32

/-- What the decoder reads from the low `nbits` bits of `w`, every bit above them 0: the opcode table's numbering
is the command word's own (30_encoding R70). -/
def decodeTableWord (nbits w : Nat) : Option Instr :=
  match decode (BitVec.ofNat 32 (w % 2 ^ nbits)) with
  | .ok i => some i
  | .error _ => none

end Sys2Proof
end

