-- ==== Sys2Proof/Config.lean ====
section
/-! DEFINITION. What an implementation fixes (the parameters of 00_scope R5, as plain data that the state carries
and no step writes) and the free values, which have no body. -/

namespace Sys2Proof

/-- The profiles of 40_inspectors R91 that an inspector can find. -/
inductive Profile where
  | ac3
  | dtsI
  | dtsII
  | dtsIII
  | aac1
  | aac2
  | aac4
deriving DecidableEq, Repr

/-- `PAYLOAD_SWAP_SENSE` (00_scope R5, 41_encapsulator R123). -/
inductive SwapSense where
  | document
  | inverted
deriving DecidableEq, Repr

/-- One row of `PROFILE_TABLE`: base data-type code, burst period in bytes, sub-frames per burst. -/
structure ProfileRow where
  typeCode : Half
  period : Word
  aggK : Nat
deriving DecidableEq, Repr

/-- `PROFILE_TABLE` (00_scope R5, 40_inspectors R91), one row per profile. -/
structure ProfileTable where
  ac3 : ProfileRow
  dtsI : ProfileRow
  dtsII : ProfileRow
  dtsIII : ProfileRow
  aac1 : ProfileRow
  aac2 : ProfileRow
  aac4 : ProfileRow
deriving DecidableEq, Repr

/-- The named parameters of 00_scope R5, and `IBE_BASE` of 20_memory R61. -/
structure Params where
  frameBufBytes : Nat
  ibeBase : Nat
  syncA : Half
  syncB : Half
  table : ProfileTable
  swapSense : SwapSense
  dtsRawFit : Bool
deriving DecidableEq, Repr

/-- FREE VALUE: how many bytes the SINK would take at the `n`-th draw; an offer accepts at most its length
(20_memory R55, log entry 3). No body: nothing can be proved of its value. -/
opaque Config.sinkAccepts : Nat → Nat

/-- FREE VALUE: what a HOST read of a frame-buffer byte nothing has written returns at the `n`-th draw
(93_implementation_defined part A, log entry 7). No body. -/
opaque Config.unwrittenByte : Nat → Byte

end Sys2Proof
end

