-- ==== Sys2Proof/Machine/Defaults.lean ====
section
/-! DEFINITION. The default parameters of 00_scope R5 and 40_inspectors R91, the lookup of a profile's row, and
what the spec demands of a parameter choice. -/

namespace Sys2Proof.Machine

/-- The row of `PROFILE_TABLE` for a profile (40_inspectors R91). -/
def profileRow (p : Params) : Profile → ProfileRow
  | .ac3 => p.table.ac3
  | .dtsI => p.table.dtsI
  | .dtsII => p.table.dtsII
  | .dtsIII => p.table.dtsIII
  | .aac1 => p.table.aac1
  | .aac2 => p.table.aac2
  | .aac4 => p.table.aac4

/-- `AGG_K(profile)` (00_scope R5). -/
def aggK (p : Params) (pr : Profile) : Nat := (profileRow p pr).aggK

/-- The code of a profile in `DESC_FLAGS.PROFILE` (40_inspectors R91). -/
def profileCode : Profile → BitVec 4
  | .ac3 => 0#4
  | .dtsI => 1#4
  | .dtsII => 2#4
  | .dtsIII => 3#4
  | .aac1 => 4#4
  | .aac2 => 5#4
  | .aac4 => 6#4

/-- The code `HOST` of a descriptor the HOST writes (40_inspectors R91). -/
def hostProfileCode : BitVec 4 := 15#4

/-- The default `PROFILE_TABLE` (40_inspectors R91). -/
def defaultTable : ProfileTable where
  ac3 := ⟨0x0001#16, 6144#32, 1⟩
  dtsI := ⟨0x000B#16, 2048#32, 1⟩
  dtsII := ⟨0x000C#16, 4096#32, 1⟩
  dtsIII := ⟨0x000D#16, 8192#32, 1⟩
  aac1 := ⟨0x0007#16, 4096#32, 1⟩
  aac2 := ⟨0x0020#16, 8192#32, 1⟩
  aac4 := ⟨0x0033#16, 16384#32, 1⟩

/-- The defaults of 00_scope R5. DESIGN CHOICE, unsafe (log entry 5): `FRAME_BUF_BYTES` and `IBE_BASE` are OPEN in
the spec; the least capacity R5 admits and base 0 stand here. -/
def defaultParams : Params where
  frameBufBytes := 16384
  ibeBase := 0
  syncA := 0xF872#16
  syncB := 0x4E1F#16
  table := defaultTable
  swapSense := .document
  dtsRawFit := true

/-- What the spec demands of the parameters: `FRAME_BUF_BYTES` is at least 16384 (00_scope R5) and every `AGG_K`
lies in 1 to 255 (42_session R157). DESIGN CHOICE, safe (log entry 19): no period of the table is asked to be even, which
00_scope R5 and 40_inspectors R91 do not ask either; under a table with an odd period SUBMIT emits an odd-length burst,
against the sentence of 20_memory R59 that every burst is even. -/
abbrev paramsWf (p : Params) : Prop :=
  16384 ≤ p.frameBufBytes ∧
  (1 ≤ p.table.ac3.aggK ∧ p.table.ac3.aggK ≤ 255) ∧
  (1 ≤ p.table.dtsI.aggK ∧ p.table.dtsI.aggK ≤ 255) ∧
  (1 ≤ p.table.dtsII.aggK ∧ p.table.dtsII.aggK ≤ 255) ∧
  (1 ≤ p.table.dtsIII.aggK ∧ p.table.dtsIII.aggK ≤ 255) ∧
  (1 ≤ p.table.aac1.aggK ∧ p.table.aac1.aggK ≤ 255) ∧
  (1 ≤ p.table.aac2.aggK ∧ p.table.aac2.aggK ≤ 255) ∧
  (1 ≤ p.table.aac4.aggK ∧ p.table.aac4.aggK ≤ 255)

end Sys2Proof.Machine
end

