-- ==== Sys2Proof/Machine/State.lean ====
section
/-! DEFINITION. The state of the block (10_state), as plain data: every register under its own name, the frame
buffer, the hidden state, the output stream, and the model's own fields that hold what comes from outside. -/

namespace Sys2Proof.Machine

/-- `STATUS.ERR` (60_exceptions R180). The codes 9 to 15 are never produced and have no constructor. -/
inductive ErrCode where
  | ok
  | unrecognizedFrame
  | payloadTooLarge
  | unsupportedCodec
  | sinkWriteFailure
  | illegalCommand
  | noSession
  | sessionOpen
  | badParameter
deriving DecidableEq, Repr

/-- `STATUS.AGG`. The source's state `Full` exists only inside a SUBMIT step (10_state R28). -/
inductive AggState where
  | empty
  | accumulating
deriving DecidableEq, Repr

/-- The five `DESC_*` registers (10_state R26), which hold a BurstDescriptor (00_scope R11). -/
structure Descriptor where
  type : Half
  lencode : Half
  offset : Word
  xswap : Bool
  pre : Bool
  profile : BitVec 4
  period : Word
deriving DecidableEq, Repr

/-- The host-visible registers (10_state R22). -/
inductive RegName where
  | cmd
  | status
  | cfg
  | frameLen
  | descType
  | descLencode
  | descOffset
  | descFlags
  | descPeriod
  | burstLen
  | sinkAccepted
deriving DecidableEq, Repr

/-- What comes from outside between commands (00_scope R12, 70_reset R200): a HOST access at a bus address with its
width in bits, or the platform's reset. Of a written value the low `width` bits count. -/
inductive HostEvent where
  | read (addr : Nat) (width : Nat)
  | write (addr : Nat) (width : Nat) (value : Word)
  | reset
deriving DecidableEq, Repr

/-- An answer of the SINK that the environment has fixed (20_memory R55): a number of bytes it takes (an offer
accepts at most its own length), or no answer ever. -/
inductive SinkAnswer where
  | accepts (count : Nat)
  | silent
deriving DecidableEq, Repr

/-- The frame buffer: pairs of an index `i` of `FB` and its byte. An index is listed exactly when
`FB_WRITTEN[i] = 1` (10_state R31), so an unlisted index has no value. -/
abbrev Memory := List Host.Cell

/-- The canonical form: indices strictly rising. Every listed byte was written, so nothing listed equals what an
unlisted index reads as, which is no value. -/
abbrev Memory.wf (m : Memory) : Prop := m.Pairwise (fun x y => x.1 < y.1)

structure State where
  /-- `STATUS.ERR` (R24) -/
  err : ErrCode
  /-- `STATUS.SESS` (R24, R27) -/
  sess : Bool
  /-- `STATUS.TERM` (R24, R27) -/
  term : Bool
  /-- `STATUS.AGG` (R24, R28) -/
  agg : AggState
  /-- `STATUS.FILL` (R24, R28) -/
  fill : BitVec 8
  /-- `CFG.BE` (R25) -/
  be : Bool
  /-- `CFG.CODEC` (R25) -/
  codec : BitVec 3
  /-- `FRAME_LEN` (R26) -/
  frameLen : Word
  /-- `DESC_TYPE`, `DESC_LENCODE`, `DESC_OFFSET`, `DESC_FLAGS`, `DESC_PERIOD` (R26) -/
  desc : Descriptor
  /-- `BURST_LEN` (R29) -/
  burstLen : Word
  /-- `SINK_ACCEPTED` (R29) -/
  sinkAccepted : Word
  /-- `FB` with `FB_WRITTEN` (R22, R31) -/
  fb : Memory
  /-- `ACC`, the accumulation buffer (R30) -/
  acc : List Byte
  /-- `ACC_PROFILE` (R30) -/
  accProfile : Profile
  /-- `SCRATCH_CAP` (R30) -/
  scratchCap : Nat
  /-- the output stream held by the SINK, oldest byte first (20_memory R50, R55) -/
  stream : List Byte
  /-- the parameters of this block (00_scope R5); no step writes them -/
  params : Params
  /-- MODEL'S OWN: the HOST's accesses not yet performed, oldest first (20_memory R64) -/
  hostQueue : List HostEvent
  /-- MODEL'S OWN: what the HOST's last read returned, zero-extended -/
  readData : Word
  /-- MODEL'S OWN: the SINK's answers that are fixed, oldest first; past them the answer is a free value -/
  sinkPlan : List SinkAnswer
  /-- MODEL'S OWN: how many free values have been drawn -/
  draws : Nat
deriving DecidableEq, Repr

/-- The ways a step stops that the spec names (60_exceptions R198). The block's own errors are no faults: they are
values of `STATUS.ERR` in a next state. -/
inductive Fault where
  /-- INSPECT, ENCAPSULATE or SUBMIT reads `FB[index]` and nothing has written it (10_state R32). Safe: the block goes
  on with whatever the buffer holds. -/
  | unwrittenRead (index : Nat)
  /-- ENCAPSULATE or SUBMIT offers a burst and the SINK never answers: the CORE is stuck (20_memory R55). Safe: the
  command never completes on the block either. -/
  | sinkNeverAnswers
deriving DecidableEq, Repr

/-- What the model gives no meaning. -/
inductive Refusal where
  /-- The rejection by name of a command without a meaning yet; no command is in that case. Safe. -/
  | notModelled (mnemonic : String)
  /-- A HOST register access not 32 bits wide, or a frame-buffer access not 8 bits wide (20_memory R53). Safe. -/
  | accessWidth (offset : Nat) (width : Nat)
  /-- A HOST register access at an offset that is no multiple of 4 (20_memory R53). Safe. -/
  | misaligned (offset : Nat)
  /-- A HOST access outside the register map and the frame buffer (20_memory R54). Safe. -/
  | unmapped (addr : Nat)
deriving DecidableEq, Repr

/-- How a command or a host access ends. -/
abbrev Result := Host.Outcome State Fault Refusal

/-- All descriptor registers 0 (70_reset R200). -/
def Descriptor.zero : Descriptor := ⟨0#16, 0#16, 0#32, false, false, 0#4, 0#32⟩

/-- The machine right after reset (10_state R34, 70_reset R200): every register 0, nothing written to `FB`, no
session. `accProfile` is a DESIGN CHOICE (log entry 8); so are the model's own fields, the empty stream and the two
OPEN parameters (log entries 1, 3, 5, 9, 10). -/
def State.reset : State where
  err := .ok
  sess := false
  term := false
  agg := .empty
  fill := 0#8
  be := false
  codec := 0#3
  frameLen := 0#32
  desc := Descriptor.zero
  burstLen := 0#32
  sinkAccepted := 0#32
  fb := []
  acc := []
  accProfile := .ac3
  scratchCap := 0
  stream := []
  params := defaultParams
  hostQueue := []
  readData := 0#32
  sinkPlan := []
  draws := 0

end Sys2Proof.Machine
end

