-- ==== Sys2Proof/Machine/Flags.lean ====
section
/-! DEFINITION. The `STATUS` and `CFG` words (10_state R24, R25) and the recording that ends every command
(60_exceptions R188): the block's only flags. -/

namespace Sys2Proof.Machine

/-- The number of a result code (60_exceptions R180). -/
def errNumber : ErrCode → BitVec 4
  | .ok => 0#4
  | .unrecognizedFrame => 1#4
  | .payloadTooLarge => 2#4
  | .unsupportedCodec => 3#4
  | .sinkWriteFailure => 4#4
  | .illegalCommand => 5#4
  | .noSession => 6#4
  | .sessionOpen => 7#4
  | .badParameter => 8#4

/-- Bit 6 of `STATUS` (10_state R24). -/
def aggBit : AggState → Bool
  | .empty => false
  | .accumulating => true

/-- `STATUS` as the HOST reads it (10_state R24): `ERR` in 3:0, `SESS` 4, `TERM` 5, `AGG` 6, `FILL` in 15:8, the
reserved bits 0. -/
def statusWord (s : State) : Word :=
  (errNumber s.err).setWidth 32 |||
  (BitVec.ofBool s.sess).setWidth 32 <<< 4 |||
  (BitVec.ofBool s.term).setWidth 32 <<< 5 |||
  (BitVec.ofBool (aggBit s.agg)).setWidth 32 <<< 6 |||
  s.fill.setWidth 32 <<< 8

/-- `CFG` as the HOST reads it (10_state R25): `BE` in bit 0, `CODEC` in 3:1, the reserved bits 0. -/
def cfgWord (s : State) : Word :=
  (BitVec.ofBool s.be).setWidth 32 ||| s.codec.setWidth 32 <<< 1

/-- The recording of 60_exceptions R188 for a command that made no offer to the SINK. -/
def record (e : ErrCode) (s : State) : State :=
  { s with err := e, burstLen := 0#32, sinkAccepted := 0#32 }

/-- The recording for a command that offered `len` bytes of which the SINK took `a` (20_memory R55, 60_exceptions
R184, R188): a short answer is `SINK_WRITE_FAILURE`. -/
def recordOffer (len a : Nat) (s : State) : State :=
  { s with
    err := if a < len then .sinkWriteFailure else .ok
    burstLen := BitVec.ofNat 32 len
    sinkAccepted := BitVec.ofNat 32 a }

end Sys2Proof.Machine
end

