-- ==== Sys2Proof/Machine/Ops.lean ====
section
/-! DEFINITION. The named operations: frame-buffer bytes, raising an error (the block's only exception entry), the
completion of a command, the offer to the SINK, and reset. The block has no return from an error (60_exceptions
R192). -/

namespace Sys2Proof.Machine

/-- `MemRead(FB, i, 1)` (00_scope R9): the byte at index `i`, or nothing where `FB_WRITTEN[i] = 0` (10_state R31). -/
def memRead : Memory → Nat → Option Byte
  | [], _ => none
  | (a, b) :: m, i => if a = i then some b else memRead m i

/-- Writing one byte of `FB`, which sets `FB_WRITTEN[i]`; the list stays sorted. -/
def memWrite : Memory → Nat → Byte → Memory
  | [], i, v => [(i, v)]
  | (a, b) :: m, i, v =>
    if i < a then (i, v) :: (a, b) :: m
    else if i = a then (i, v) :: m
    else (a, b) :: memWrite m i v

/-- `FB[off .. off + n)`, read byte by byte in increasing order (20_memory R51, R58); the first byte nothing has
written is the fault of 10_state R32. -/
def readRange (m : Memory) : Nat → Nat → Except Fault (List Byte)
  | _, 0 => .ok []
  | off, n + 1 =>
    match memRead m off with
    | none => .error (.unwrittenRead off)
    | some b =>
      match readRange m (off + 1) n with
      | .error f => .error f
      | .ok bs => .ok (b :: bs)

/-- `raise E` (00_scope R9, 60_exceptions R188): the command ends with error `E`, having offered nothing. -/
def raise (e : ErrCode) (s : State) : Result := .next (record e s)

/-- A command that ends with `OK` and offered nothing (60_exceptions R188). -/
def complete (s : State) : Result := .next (record .ok s)

/-- `ILLEGAL_COMMAND` for a word that does not decode (30_encoding R74, 60_exceptions R185); the word and the reason
are not recorded. -/
def illegalCommand (_reason : DecodeError) (s : State) : Result := raise .illegalCommand s

/-- The SINK's answer to an offer of `len` bytes (20_memory R55): the oldest answer the environment has fixed, or, past
those, a free value; at most `len` bytes are taken. Nothing where the SINK never answers. -/
def sinkAnswer (len : Nat) (s : State) : Option (Nat × State) :=
  match s.sinkPlan with
  | [] => some (min (Config.sinkAccepts s.draws) len, { s with draws := s.draws + 1 })
  | .accepts a :: rest => some (min a len, { s with sinkPlan := rest })
  | .silent :: _ => none

/-- `SinkOffer(s)` of 20_memory R55, with the recording: the accepted prefix joins the stream. -/
def sinkOffer (bytes : List Byte) (s : State) : Result :=
  match sinkAnswer bytes.length s with
  | none => .fault .sinkNeverAnswers
  | some (a, t) => .next (recordOffer bytes.length a { t with stream := t.stream ++ bytes.take a })

/-- What OPEN and CLOSE do to the session's own state (42_session R150, R152): no termination, no aggregation, the
buffers released. -/
def clearSession (s : State) : State :=
  { s with term := false, agg := .empty, fill := 0#8, acc := [], scratchCap := 0 }

/-- The platform's reset (70_reset R200): everything as in `State.reset`; the parameters, the stream (the SINK is
external) and the model's own record of the outside are not touched. -/
def applyReset (s : State) : State :=
  { State.reset with
    stream := s.stream
    params := s.params
    hostQueue := s.hostQueue
    readData := s.readData
    sinkPlan := s.sinkPlan
    draws := s.draws }

end Sys2Proof.Machine
end

