-- ==== Sys2Proof/Machine/Registers.lean ====
section
/-! DEFINITION. The host-visible registers (10_state R22 to R29): their offsets, what a HOST read returns and what a
HOST write changes. -/

namespace Sys2Proof.Machine

/-- The offset of a register from the block's base (10_state R22). -/
def regOffset : RegName → Nat
  | .cmd => 0x000
  | .status => 0x004
  | .cfg => 0x008
  | .frameLen => 0x00C
  | .descType => 0x010
  | .descLencode => 0x014
  | .descOffset => 0x018
  | .descFlags => 0x01C
  | .descPeriod => 0x020
  | .burstLen => 0x024
  | .sinkAccepted => 0x028

/-- The register at an offset (10_state R22). -/
def regAt (o : Nat) : Option RegName :=
  [RegName.cmd, .status, .cfg, .frameLen, .descType, .descLencode, .descOffset, .descFlags, .descPeriod, .burstLen,
    .sinkAccepted].find? (fun r => regOffset r == o)

/-- `DESC_FLAGS` as the HOST reads it (10_state R26). -/
def descFlagsWord (d : Descriptor) : Word :=
  (BitVec.ofBool d.xswap).setWidth 32 ||| (BitVec.ofBool d.pre).setWidth 32 <<< 1 ||| d.profile.setWidth 32 <<< 8

/-- What a HOST read of a register returns; `CMD` reads 0 (10_state R23 to R29). -/
def regRead (s : State) : RegName → Word
  | .cmd => 0#32
  | .status => statusWord s
  | .cfg => cfgWord s
  | .frameLen => s.frameLen
  | .descType => s.desc.type.setWidth 32
  | .descLencode => s.desc.lencode.setWidth 32
  | .descOffset => s.desc.offset
  | .descFlags => descFlagsWord s.desc
  | .descPeriod => s.desc.period
  | .burstLen => s.burstLen
  | .sinkAccepted => s.sinkAccepted

/-- What a HOST write of `v` to a register other than `CMD` changes: the writable bits; read-only registers and
reserved bits ignore it (20_memory R52, 10_state R24 to R29). A write to `CMD` stores nothing: it is a command
(10_state R23). -/
def regWrite (v : Word) (s : State) : RegName → State
  | .cmd => s
  | .status => s
  | .cfg => s
  | .frameLen => { s with frameLen := v }
  | .descType => { s with desc := { s.desc with type := v.setWidth 16 } }
  | .descLencode => { s with desc := { s.desc with lencode := v.setWidth 16 } }
  | .descOffset => { s with desc := { s.desc with offset := v } }
  | .descFlags =>
    { s with desc := { s.desc with xswap := v.getLsbD 0, pre := v.getLsbD 1, profile := v.extractLsb' 8 4 } }
  | .descPeriod => { s with desc := { s.desc with period := v } }
  | .burstLen => s
  | .sinkAccepted => s

end Sys2Proof.Machine
end

