-- ==== Sys2Proof/Machine/Bus.lean ====
section
/-! DEFINITION. The HOST's accesses (20_memory R50 to R54, R61): which register or frame-buffer byte an access reaches,
what it does, and the fetch of a command, which is the value written to `CMD` (10_state R23). Also the pseudo-operations
of 30_encoding R78 as lists of accesses. -/

namespace Sys2Proof.Machine

/-- What a bus access reaches. -/
inductive Target where
  | reg (r : RegName)
  | cell (i : Nat)
  | nothing (why : Refusal)
deriving DecidableEq, Repr

/-- The first offset past the register space (20_memory R50). -/
def regSpaceEnd : Nat := 0x02C

/-- The offset of `FB[0]` (10_state R22). -/
def fbOffset : Nat := 0x1000

/-- What an access of `width` bits at offset `o` reaches (20_memory R53, R54): a register by an aligned 32-bit access,
a frame-buffer byte by an 8-bit access; every other access is refused by name. -/
def targetAt (p : Params) (o width : Nat) : Target :=
  if o < regSpaceEnd then
    if width ≠ 32 then .nothing (.accessWidth o width)
    else
      match regAt o with
      | some r => .reg r
      | none => .nothing (.misaligned o)
  else if fbOffset ≤ o ∧ o < fbOffset + p.frameBufBytes then
    if width ≠ 8 then .nothing (.accessWidth o width) else .cell (o - fbOffset)
  else .nothing (.unmapped (p.ibeBase + o))

/-- What an access at a bus address reaches: offsets count from `IBE_BASE` (20_memory R61). -/
def target (p : Params) (addr width : Nat) : Target :=
  if addr < p.ibeBase then .nothing (.unmapped addr) else targetAt p (addr - p.ibeBase) width

/-- A HOST read (20_memory R52): no side effect on the block. A frame-buffer byte nothing has written returns a free
value (93_implementation_defined part A). -/
def hostRead (addr width : Nat) (s : State) : Result :=
  match target s.params addr width with
  | .reg r => .next { s with readData := regRead s r }
  | .cell i =>
    match memRead s.fb i with
    | some b => .next { s with readData := b.setWidth 32 }
    | none => .next { s with readData := (Config.unwrittenByte s.draws).setWidth 32, draws := s.draws + 1 }
  | .nothing why => .refused why

/-- A HOST write other than to `CMD` (20_memory R52). -/
def hostWrite (addr width : Nat) (v : Word) (s : State) : Result :=
  match target s.params addr width with
  | .reg r => .next (regWrite v s r)
  | .cell i => .next { s with fb := memWrite s.fb i (v.setWidth 8) }
  | .nothing why => .refused why

/-- A HOST access, or reset, that starts no command. -/
def hostAccess (e : HostEvent) (s : State) : Result :=
  match e with
  | .read addr width => hostRead addr width s
  | .write addr width v => hostWrite addr width v s
  | .reset => .next (applyReset s)

/-- The command word an access starts: the value of a 32-bit write to `CMD` (10_state R23). -/
def commandOf (p : Params) : HostEvent → Option Word
  | .write addr width v => if target p addr width = .reg .cmd then some v else none
  | .read _ _ => none
  | .reset => none

/-- What the next step does. -/
inductive Fetched where
  | idle
  | access (e : HostEvent)
  | command (i : Instr)
  | illegal (why : DecodeError)
deriving DecidableEq, Repr

/-- The next step's work: the HOST's oldest access (20_memory R64), decoded where it is a command. -/
def fetch (s : State) : Fetched :=
  match s.hostQueue with
  | [] => .idle
  | e :: _ =>
    match commandOf s.params e with
    | none => .access e
    | some w =>
      match decode w with
      | .ok i => .command i
      | .error why => .illegal why

/-- The HOST's oldest access is taken out of the queue. -/
def popEvent (s : State) : State := { s with hostQueue := s.hostQueue.tail }

/-- `WR <REG>, v` (30_encoding R78). -/
def wrReg (p : Params) (r : RegName) (v : Word) : HostEvent := .write (p.ibeBase + regOffset r) 32 v

/-- `RD <REG>` (30_encoding R78). -/
def rdReg (p : Params) (r : RegName) : HostEvent := .read (p.ibeBase + regOffset r) 32

/-- `WRB i, b` (30_encoding R78). -/
def wrByte (p : Params) (i : Nat) (b : Byte) : HostEvent := .write (p.ibeBase + fbOffset + i) 8 (b.setWidth 32)

/-- `CMD w` (30_encoding R77): a command word written unchanged. -/
def cmdWord (p : Params) (w : Word) : HostEvent := wrReg p .cmd w

/-- The `WRB` accesses of `FRAME`, from index `i` on. -/
def frameWrites (p : Params) : Nat → List Byte → List HostEvent
  | _, [] => []
  | i, b :: bs => wrByte p i b :: frameWrites p (i + 1) bs

/-- `FRAME [b0, ...]` (30_encoding R78). -/
def frameOps (p : Params) (bs : List Byte) : List HostEvent :=
  frameWrites p 0 bs ++ [wrReg p .frameLen (BitVec.ofNat 32 bs.length)]

/-- `DESC type=t, len=l, off=o, xswap=x, pre=p, period=q` (30_encoding R78). -/
def descOps (p : Params) (t l o : Word) (x pre : Bool) (q : Word) : List HostEvent :=
  [wrReg p .descType t, wrReg p .descLencode l, wrReg p .descOffset o,
    wrReg p .descFlags
      ((BitVec.ofBool x).setWidth 32 ||| (BitVec.ofBool pre).setWidth 32 <<< 1 ||| hostProfileCode.setWidth 32 <<< 8),
    wrReg p .descPeriod q]

/-- The access that hands the block a command of `nbits` bits: a 32-bit write to `CMD`. -/
def fetchWordEvent (p : Params) (nbits w : Nat) : HostEvent := cmdWord p (BitVec.ofNat 32 (w % 2 ^ nbits))

end Sys2Proof.Machine
end

