-- ==== Sys2Proof/Machine/Session.lean ====
section
/-! DEFINITION. OPEN and CLOSE (42_session R150 to R152). -/

namespace Sys2Proof.Machine

/-- OPEN (42_session R150): `SESSION_OPEN` in an open session; else the configuration is fixed and a session starts. -/
def execOpenSession (be : Bool) (codec : Codec) (s : State) : Result :=
  if s.sess then raise .sessionOpen s
  else complete { clearSession s with sess := true, be := be, codec := codec.code }

/-- CLOSE (42_session R152): ends the session, never an error; `CFG` keeps its value. -/
def execCloseSession (s : State) : Result := complete { clearSession s with sess := false }

end Sys2Proof.Machine
end

