-- ==== Sys2Proof/Machine/Operands.lean ====
section
/-! DEFINITION. The operands of the commands (30_encoding R71): none of them but OPEN has an immediate; the others
take the frame or the payload from the frame buffer. -/

namespace Sys2Proof.Machine

/-- The length of the frame, as a count. -/
def frameCount (s : State) : Nat := s.frameLen.toNat

/-- `FRAME_LEN > FRAME_BUF_BYTES` (60_exceptions R186). -/
def frameTooLong (s : State) : Bool := decide (s.params.frameBufBytes < frameCount s)

/-- `F = FB[0..FRAME_LEN)`, the operand of INSPECT and SUBMIT (40_inspectors R90, 42_session R155). -/
def frameBytes (s : State) : Except Fault (List Byte) := readRange s.fb 0 (frameCount s)

/-- `P = FB[DESC_OFFSET..FRAME_LEN)`, the operand of ENCAPSULATE (41_encapsulator R120). -/
def payloadBytes (s : State) : Except Fault (List Byte) :=
  readRange s.fb s.desc.offset.toNat (frameCount s - s.desc.offset.toNat)

/-- `DESC_PERIOD = 0 or (DESC_PERIOD mod 2) = 1` (41_encapsulator R120). -/
def badPeriod (d : Descriptor) : Bool := decide (d.period.toNat = 0 ∨ d.period.toNat % 2 = 1)

end Sys2Proof.Machine
end

