-- ==== Sys2Proof/Machine/Encapsulator.lean ====
section
/-! DEFINITION. The burst encapsulator (41_encapsulator R121 to R129) and ENCAPSULATE (R120). -/

namespace Sys2Proof.Machine

/-- `ceil2(n)` (00_scope R7). -/
def ceil2 (n : Nat) : Nat := n + n % 2

/-- `W16(v)` (41_encapsulator R121): the one 16-bit writer, in the order `CFG.BE` selects. -/
def w16 (be : Bool) (v : Half) : List Byte :=
  if be then [v.extractLsb' 8 8, v.extractLsb' 0 8] else [v.extractLsb' 0 8, v.extractLsb' 8 8]

/-- `Preamble(d)` (41_encapsulator R122). -/
def preamble (p : Params) (be : Bool) (d : Descriptor) : List Byte :=
  w16 be p.syncA ++ w16 be p.syncB ++ w16 be d.type ++ w16 be d.lencode

/-- Whether the payload is swapped (41_encapsulator R123). -/
def swapPayload (p : Params) (be xswap : Bool) : Bool :=
  match p.swapSense with
  | .document => xor xswap be
  | .inverted => !(xor xswap be)

/-- `Body(P, swap)` (41_encapsulator R124): the whole pairs of the payload. -/
def body (swap : Bool) : List Byte → List Byte
  | a :: b :: rest => (if swap then [b, a] else [a, b]) ++ body swap rest
  | _ => []

/-- `Trail(P)` (41_encapsulator R125): the last byte of an odd payload in the most significant half of one more unit. -/
def trail (be : Bool) (payload : List Byte) : List Byte :=
  match payload.getLast? with
  | none => []
  | some b => if payload.length % 2 = 1 then w16 be (b.setWidth 16 <<< 8) else []

/-- The size `S` of a burst before padding (41_encapsulator R126). -/
def burstSize (pre : Bool) (n : Nat) : Nat := (if pre then 8 else 0) + ceil2 n

/-- The burst `B` of 41_encapsulator R128. -/
def burst (p : Params) (be : Bool) (payload : List Byte) (d : Descriptor) : List Byte :=
  (if d.pre then preamble p be d else []) ++ body (swapPayload p be d.xswap) payload ++ trail be payload ++
    List.replicate (d.period.toNat - burstSize d.pre payload.length) 0x00#8

/-- The growth of the scratch buffer (41_encapsulator R129). -/
def growScratch (swap : Bool) (n : Nat) (s : State) : State :=
  if swap = true ∧ 2 ≤ n ∧ s.scratchCap < n then { s with scratchCap := n } else s

/-- `EmitBurst(P, d)` (41_encapsulator R128). -/
def emitBurst (payload : List Byte) (d : Descriptor) (s : State) : Result :=
  if d.period.toNat < burstSize d.pre payload.length then raise .payloadTooLarge s
  else
    sinkOffer (burst s.params s.be payload d)
      (growScratch (swapPayload s.params s.be d.xswap) payload.length s)

/-- ENCAPSULATE (41_encapsulator R120). -/
def execEncapsulate (s : State) : Result :=
  if !s.sess then raise .noSession s
  else if s.term then raise .unsupportedCodec s
  else if frameTooLong s then raise .badParameter s
  else if frameCount s < s.desc.offset.toNat then raise .badParameter s
  else if badPeriod s.desc then raise .badParameter s
  else
    match payloadBytes s with
    | .error f => .fault f
    | .ok payload => emitBurst payload s.desc s

end Sys2Proof.Machine
end

