-- ==== Sys2Proof/Machine/Inspectors.lean ====
section
/-! DEFINITION. The codec header inspectors (40_inspectors R92 to R111) and INSPECT (R90). An inspector is a function of
the parameters and the frame's bytes; `none` is `Err`, and a byte the frame does not have is `Err` (R92). -/

namespace Sys2Proof.Machine

/-- An inspector's result: the profile it found and the descriptor for the `DESC_*` registers. -/
structure Inspected where
  profile : Profile
  desc : Descriptor
deriving DecidableEq, Repr

/-- `(8 * N) mod 2^16` (40_inspectors R93). -/
def lengthCode (n : Nat) : Half := BitVec.ofNat 16 (8 * n)

/-- The descriptor of a frame of `n` bytes of a profile (40_inspectors R93): offset 0, the period from
`PROFILE_TABLE`. -/
def inspected (p : Params) (pr : Profile) (type : Half) (xswap pre : Bool) (n : Nat) : Inspected :=
  ⟨pr, ⟨type, lengthCode n, 0#32, xswap, pre, profileCode pr, (profileRow p pr).period⟩⟩

/-- `InspectAC3` (40_inspectors R96, R97): sync word `0x0B77`, `bsid` at most 10; `bsmod` goes to bits 10:8 of the
data type. -/
def inspectAc3 (p : Params) (f : List Byte) : Option Inspected :=
  if f.length < 6 then none
  else do
    let b0 : Byte ← f[0]?
    let b1 : Byte ← f[1]?
    let b5 : Byte ← f[5]?
    if b0 ≠ 0x0B#8 ∨ b1 ≠ 0x77#8 then none
    else if 10 < (b5 >>> 3).toNat then none
    else some (inspected p .ac3 (p.table.ac3.typeCode ||| ((b5 &&& 0x07#8).setWidth 16 <<< 8)) false true f.length)

/-- The four DTS markers (40_inspectors R100). -/
inductive DtsMarker where
  | words16be
  | words16le
  | words14be
  | words14le
deriving DecidableEq, Repr

/-- The marker in the first four bytes (40_inspectors R100). -/
def dtsMarker (f : List Byte) : Option DtsMarker :=
  if f.take 4 = [0x7F#8, 0xFE#8, 0x80#8, 0x01#8] then some .words16be
  else if f.take 4 = [0xFE#8, 0x7F#8, 0x01#8, 0x80#8] then some .words16le
  else if f.take 4 = [0x1F#8, 0xFF#8, 0xE8#8, 0x00#8] then some .words14be
  else if f.take 4 = [0xFF#8, 0x1F#8, 0x00#8, 0xE8#8] then some .words14le
  else none

/-- The least frame length for a marker (40_inspectors R100). -/
def dtsMinLen : DtsMarker → Nat
  | .words16be => 6
  | .words16le => 6
  | .words14be => 7
  | .words14le => 8

/-- `requires_extra_swap` (40_inspectors R102): set for the little-endian markers. -/
def dtsXswap : DtsMarker → Bool
  | .words16be => false
  | .words16le => true
  | .words14be => false
  | .words14le => true

/-- `(((hi << 8) | lo) >> 2) & 0x7F`, the NBLKS field of a 16-bit stream (40_inspectors R100). -/
def nblks16 (hi lo : Byte) : Nat :=
  (((hi.setWidth 16 <<< 8 ||| lo.setWidth 16) >>> 2) &&& 0x7F#16).toNat

/-- `((hi & 0x07) << 4) | ((lo & 0x3F) >> 2)`, the NBLKS field of a 14-bit stream (40_inspectors R100). -/
def nblks14 (hi lo : Byte) : Nat :=
  (((hi &&& 0x07#8) <<< 4) ||| ((lo &&& 0x3F#8) >>> 2)).toNat

/-- `NB` for a marker, from the bytes 40_inspectors R100 names. -/
def dtsNblks (f : List Byte) : DtsMarker → Option Nat
  | .words16be => do return nblks16 (← f[4]?) (← f[5]?)
  | .words16le => do return nblks16 (← f[5]?) (← f[4]?)
  | .words14be => do return nblks14 (← f[5]?) (← f[6]?)
  | .words14le => do return nblks14 (← f[4]?) (← f[7]?)

/-- The profile of a sample-block count (40_inspectors R101). -/
def dtsProfile (blocks : Nat) : Option Profile :=
  if blocks = 16 then some .dtsI
  else if blocks = 32 then some .dtsII
  else if blocks = 64 then some .dtsIII
  else none

/-- The preamble enable of a DTS frame of `n` bytes (40_inspectors R103): off for a frame that exactly fills its
period, under `DTS_RAW_FIT`. -/
def dtsPre (p : Params) (pr : Profile) (n : Nat) : Bool :=
  !(p.dtsRawFit && decide (n = (profileRow p pr).period.toNat))

/-- `InspectDTS` (40_inspectors R100 to R104). -/
def inspectDts (p : Params) (f : List Byte) : Option Inspected :=
  if f.length < 4 then none
  else do
    let m ← dtsMarker f
    if f.length < dtsMinLen m then none
    else
      let nb ← dtsNblks f m
      let pr ← dtsProfile (nb + 1)
      return inspected p pr (profileRow p pr).typeCode (dtsXswap m) (dtsPre p pr f.length) f.length

/-- `sampling_frequency_index` (40_inspectors R106). -/
def adtsSfIndex (b2 : Byte) : Nat := ((b2 >>> 2) &&& 0x0F#8).toNat

/-- `aac_frame_length` (40_inspectors R106). -/
def adtsFrameLength (b3 b4 b5 : Byte) : Nat :=
  (((b3 &&& 0x03#8).setWidth 16 <<< 11) ||| (b4.setWidth 16 <<< 3) ||| (b5.setWidth 16 >>> 5)).toNat

/-- The profile of `number_of_raw_data_blocks_in_frame` (40_inspectors R109). -/
def aacProfile (b6 : Byte) : Option Profile :=
  let blocks := (b6 &&& 0x03#8).toNat + 1
  if blocks = 1 then some .aac1
  else if blocks = 2 then some .aac2
  else if blocks = 4 then some .aac4
  else none

/-- `InspectAAC` (40_inspectors R106 to R109). -/
def inspectAac (p : Params) (f : List Byte) : Option Inspected :=
  if f.length < 7 then none
  else do
    let b0 : Byte ← f[0]?
    let b1 : Byte ← f[1]?
    if b0 ≠ 0xFF#8 ∨ b1 &&& 0xF0#8 ≠ 0xF0#8 then none
    else
      let b2 : Byte ← f[2]?
      if 13 ≤ adtsSfIndex b2 then none
      else
        let b3 : Byte ← f[3]?
        let b4 : Byte ← f[4]?
        let b5 : Byte ← f[5]?
        if adtsFrameLength b3 b4 b5 < 7 then none
        else
          let b6 : Byte ← f[6]?
          let pr ← aacProfile b6
          return inspected p pr (profileRow p pr).typeCode false true f.length

/-- Dispatch by codec (40_inspectors R95); a codec without an inspector is caught before (42_session R156). -/
def inspectAs (p : Params) (f : List Byte) : Codec → Option Inspected
  | .ac3 => inspectAc3 p f
  | .dts => inspectDts p f
  | .adtsAac => inspectAac p f
  | .unsupported _ => none

/-- `CFG.CODEC` is 0, 1 or 2 (40_inspectors R90, R95). -/
def codecSupported (k : BitVec 3) : Bool := decide (k.toNat < 3)

/-- What INSPECT and SUBMIT do alike (40_inspectors R90, 42_session R155): the checks in the order of 60_exceptions
R187, the frame, its inspection. Either the command ends here, or the frame and its descriptor are handed on. -/
def inspectFrame (s : State) : Except Result (List Byte × Inspected) :=
  if !s.sess then .error (raise .noSession s)
  else if s.term then .error (raise .unsupportedCodec s)
  else if !codecSupported s.codec then .error (raise .unsupportedCodec { s with term := true })
  else if frameTooLong s then .error (raise .badParameter s)
  else
    match frameBytes s with
    | .error f => .error (.fault f)
    | .ok f =>
      match inspectAs s.params f (Codec.ofCode s.codec) with
      | none => .error (raise .unrecognizedFrame s)
      | some r => .ok (f, r)

/-- `WriteDesc(r)` (40_inspectors R94): all five descriptor registers at once. -/
def writeDesc (d : Descriptor) (s : State) : State := { s with desc := d }

/-- INSPECT (40_inspectors R90). -/
def execInspect (s : State) : Result :=
  match inspectFrame s with
  | .error r => r
  | .ok (_, r) => complete (writeDesc r.desc s)

end Sys2Proof.Machine
end

