-- ==== Sys2Proof/Machine/Submit.lean ====
section
/-! DEFINITION. Aggregation and SUBMIT (42_session R155 to R158). -/

namespace Sys2Proof.Machine

/-- `ACC <- ACC ++ P; ACC_PROFILE <- profile; FILL <- FILL + 1` (42_session R157). -/
def appendSubframe (payload : List Byte) (pr : Profile) (s : State) : State :=
  { s with acc := s.acc ++ payload, accProfile := pr, fill := s.fill + 1#8 }

/-- The flush's return to `Empty` (42_session R157). -/
def emptyAccumulator (s : State) : State := { s with acc := [], fill := 0#8, agg := .empty }

/-- `Aggregate(P, r, k)` (42_session R157). -/
def aggregate (payload : List Byte) (r : Inspected) (k : Nat) (s : State) : Result :=
  if r.desc.period.toNat < burstSize r.desc.pre (s.acc.length + payload.length) then raise .payloadTooLarge s
  else
    let t := appendSubframe payload r.profile s
    if t.fill.toNat < k then complete { t with agg := .accumulating }
    else emitBurst t.acc { r.desc with lencode := lengthCode t.acc.length } (emptyAccumulator t)

/-- SUBMIT (42_session R155). -/
def execSubmit (s : State) : Result :=
  match inspectFrame s with
  | .error r => r
  | .ok (f, r) =>
    if s.fill ≠ 0#8 ∧ r.profile ≠ s.accProfile then raise .unrecognizedFrame s
    else
      let t := writeDesc r.desc s
      let payload := f.drop r.desc.offset.toNat
      if aggK s.params r.profile = 1 then emitBurst payload r.desc t
      else aggregate payload r (aggK s.params r.profile) t

end Sys2Proof.Machine
end

