-- ==== Sys2Proof/Machine/Dispatch.lean ====
section
/-! DEFINITION. The meaning of each command, one arm per constructor. -/

namespace Sys2Proof.Machine

def exec (i : Instr) (s : State) : Host.Outcome State Fault Refusal :=
  match i with
  | .openSession be codec => Sys2Proof.Machine.execOpenSession be codec s
  | .closeSession => Sys2Proof.Machine.execCloseSession s
  | .inspect => Sys2Proof.Machine.execInspect s
  | .encapsulate => Sys2Proof.Machine.execEncapsulate s
  | .submit => Sys2Proof.Machine.execSubmit s

end Sys2Proof.Machine
end

