-- ==== Sys2Proof/Machine/Step.lean ====
section
/-! DEFINITION. One step: the HOST's oldest access is performed; a write to `CMD` runs its command (00_scope R12,
10_state R23, 20_memory R64). With no access left nothing happens (log entry 2). -/

namespace Sys2Proof.Machine

def step (s : State) : Host.Outcome State Fault Refusal :=
  match fetch s with
  | .idle => .next s
  | .access e => hostAccess e (popEvent s)
  | .command i => exec i (popEvent s)
  | .illegal why => illegalCommand why (popEvent s)

/-- `s` with the HOST's next access a write of the word to `CMD`, so that the next step runs it. -/
def State.withFetchWord (s : State) (nbits w : Nat) : State :=
  { s with hostQueue := fetchWordEvent s.params nbits w :: s.hostQueue }

end Sys2Proof.Machine
end

