-- ==== Sys2Proof/Safety.lean ====
section
/-! DEFINITION. The terms in which claims speak: the invariant every step keeps, states that differ only in what no
output depends on, and reading a 16-bit unit back from the stream. -/

namespace Sys2Proof.Machine

/-- What holds of every reachable state. `agg_fill` and `closed` are the invariants of 10_state R24, `acc_fill` is
10_state R30, `failure` is 60_exceptions R184. -/
structure StateInv (s : State) : Prop where
  /-- the parameters meet what the spec demands of them -/
  params : paramsWf s.params
  /-- the frame buffer is in its canonical form -/
  fb_wf : Memory.wf s.fb
  /-- nothing is written past `FRAME_BUF_BYTES` -/
  fb_range : ∀ c ∈ s.fb, c.1 < s.params.frameBufBytes
  /-- `AGG = 0` exactly when `FILL = 0` -/
  agg_fill : s.agg = .empty ↔ s.fill = 0#8
  /-- `SESS = 0` implies `TERM = 0`, `AGG = 0`, `FILL = 0`, and no scratch buffer -/
  closed : s.sess = false → s.term = false ∧ s.agg = .empty ∧ s.fill = 0#8 ∧ s.scratchCap = 0
  /-- `ACC` is empty whenever `FILL = 0` -/
  acc_fill : s.fill = 0#8 → s.acc = []
  /-- `FILL` is below `AGG_K` of the profile being joined -/
  fill_lt : s.fill ≠ 0#8 → s.fill.toNat < aggK s.params s.accProfile
  /-- the SINK takes no more than it is offered -/
  accepted : s.sinkAccepted.toNat ≤ s.burstLen.toNat
  /-- `SINK_WRITE_FAILURE` is reported exactly when the accepted prefix is short -/
  failure : s.err = .sinkWriteFailure ↔ s.sinkAccepted.toNat < s.burstLen.toNat

/-- What a later command does, out of a state whose stream held `n` bytes before it: the stream's bytes past those, with
`SCRATCH_CAP` put out of sight. -/
def pastStream (n : Nat) (s : State) : State := { s with stream := s.stream.drop n, scratchCap := 0 }

/-- A function of states applied to the next state of an outcome. -/
def mapNext (g : State → State) : Result → Result
  | .next s => .next (g s)
  | .fault f => .fault f
  | .refused r => .refused r

/-- A state with `SCRATCH_CAP` put out of sight. -/
def hideScratch (s : State) : State := { s with scratchCap := 0 }

/-- A state with the frame buffer put out of sight. -/
def hideFb (s : State) : State := { s with fb := [] }

/-- A state with `ACC_PROFILE` put out of sight while it is not meaningful (10_state R30). -/
def hideIdleProfile (s : State) : State := if s.fill = 0#8 then { s with accProfile := .ac3 } else s

/-- The 16-bit unit whose bytes stand in the stream as `x`, then `y`, read in the order of `CFG.BE` (20_memory R58). -/
def unitAt (be : Bool) (x y : Byte) : Half := if be then x ++ y else y ++ x

/-- The state after the SINK took `a` bytes of an offer (20_memory R55): the accepted prefix joins the stream, the
registers report both lengths, a short answer is `SINK_WRITE_FAILURE`; one answer of the environment is used, or, past
those, one free value. -/
def afterOffer (bytes : List Byte) (a : Nat) (s : State) : State :=
  { s with
    stream := s.stream ++ bytes.take a
    err := if a < bytes.length then .sinkWriteFailure else .ok
    burstLen := BitVec.ofNat 32 bytes.length
    sinkAccepted := BitVec.ofNat 32 a
    sinkPlan := s.sinkPlan.tail
    draws := if s.sinkPlan = [] then s.draws + 1 else s.draws }

/-- A count the SINK may take of an offer of `len` bytes: any from 0 to `len`; the one the environment has fixed where
it has fixed one. -/
def mayAccept (s : State) (len a : Nat) : Prop :=
  a ≤ len ∧ ∀ n, s.sinkPlan.head? = some (.accepts n) → a = min n len

/-- The bytes before the payload in a burst: the preamble where it is enabled. -/
def headLen (pre : Bool) : Nat := if pre then 8 else 0

/-- The commands that process a frame (10_state R27). -/
def frameCommand : Instr → Bool
  | .openSession _ _ => false
  | .closeSession => false
  | .inspect => true
  | .encapsulate => true
  | .submit => true

end Sys2Proof.Machine
end

