-- ==== Sys2Proof/Certificates/Slice0/Obligations.lean ====
section
/-! DEFINITION. What is claimed of the block, one proposition per claim, each from the numbered rules of spec/. -/

open Sys2Proof Sys2Proof.Machine

/-! ### Encoding (30_encoding) -/

/-- 30_encoding sections 1 and 2: no operand bit of a well-formed command is lost between the encoder and the decoder. -/
def Obligations.DecodeOfEncode : Prop :=
  ∀ i : Instr, i.wellFormed = true → decode (encode i) = .ok i

/-- 30_encoding section 2: a word has one meaning, and the command it decodes to is well formed and encodes back to it. -/
def Obligations.EncodeOfDecode : Prop :=
  ∀ (w : Word) (i : Instr), decode w = .ok i → i.wellFormed = true ∧ encode i = w

/-- R73: the decoder is total on every 32-bit word. -/
def Obligations.DecodeFollowsTheTable : Prop :=
  ∀ w : Word,
    (w &&& 0xFFFFF0FF#32 = 0x00000001#32 →
      decode w = .ok (.openSession (w.getLsbD 8) (Codec.ofCode (w.extractLsb' 9 3)))) ∧
    (w = 0x00000002#32 → decode w = .ok .closeSession) ∧
    (w = 0x00000003#32 → decode w = .ok .inspect) ∧
    (w = 0x00000004#32 → decode w = .ok .encapsulate) ∧
    (w = 0x00000005#32 → decode w = .ok .submit) ∧
    (w &&& 0xFFFFF0FF#32 ≠ 0x00000001#32 → w ≠ 0x00000002#32 → w ≠ 0x00000003#32 → w ≠ 0x00000004#32 →
      w ≠ 0x00000005#32 → ∃ why, decode w = .error why)

/-- 30_encoding section 4 (the words of the textual forms): a few words, bit by bit. -/
def Obligations.DecodeKnownWords : Prop :=
  decode 0x00000001#32 = .ok (.openSession false .ac3) ∧
  decode 0x00000301#32 = .ok (.openSession true .dts) ∧
  decode 0x00000501#32 = .ok (.openSession true .adtsAac) ∧
  decode 0x00000A01#32 = .ok (.openSession false (.unsupported 5#3)) ∧
  decode 0x00000002#32 = .ok .closeSession ∧
  decode 0x00000003#32 = .ok .inspect ∧
  decode 0x00000004#32 = .ok .encapsulate ∧
  decode 0x00000005#32 = .ok .submit

/-- R74, R185: a word whose `OP` is 0 or 6 to 15, or with a nonzero must-be-zero field, decodes to no command (and no
other word does so); written to `CMD` it changes `STATUS.ERR`, `BURST_LEN` and `SINK_ACCEPTED` and nothing else of
the block. -/
def Obligations.IllegalWordsAreRecorded : Prop :=
  ∀ w : Word,
    ((w.extractLsb' 0 4 = 0#4 ∨ 6 ≤ (w.extractLsb' 0 4).toNat ∨
      (w.extractLsb' 0 4 = 1#4 ∧ (w.extractLsb' 4 4 ≠ 0#4 ∨ w.extractLsb' 12 20 ≠ 0#20)) ∨
      (2 ≤ (w.extractLsb' 0 4).toNat ∧ (w.extractLsb' 0 4).toNat ≤ 5 ∧ w.extractLsb' 4 28 ≠ 0#28)) →
      ∀ (s : State) (rest : List HostEvent),
        step { s with hostQueue := cmdWord s.params w :: rest } =
          .next { s with hostQueue := rest, err := .illegalCommand, burstLen := 0#32, sinkAccepted := 0#32 }) ∧
    (¬(w.extractLsb' 0 4 = 0#4 ∨ 6 ≤ (w.extractLsb' 0 4).toNat ∨
      (w.extractLsb' 0 4 = 1#4 ∧ (w.extractLsb' 4 4 ≠ 0#4 ∨ w.extractLsb' 12 20 ≠ 0#20)) ∨
      (2 ≤ (w.extractLsb' 0 4).toNat ∧ (w.extractLsb' 0 4).toNat ≤ 5 ∧ w.extractLsb' 4 28 ≠ 0#28)) →
      ∃ i, decode w = .ok i)

/-- R23: a write of `w` to `CMD` executes the command `w` decodes to, on the state with that access taken from the
HOST's queue (the model's own field); a word that does not decode records `ILLEGAL_COMMAND`; `CMD` keeps no state and
reads 0. -/
def Obligations.CommandWriteRunsTheCommand : Prop :=
  ∀ (s : State) (rest : List HostEvent) (w : Word),
    (∀ i, decode w = .ok i →
      step { s with hostQueue := cmdWord s.params w :: rest } = exec i { s with hostQueue := rest }) ∧
    (∀ why, decode w = .error why →
      step { s with hostQueue := cmdWord s.params w :: rest } =
        .next (record .illegalCommand { s with hostQueue := rest })) ∧
    step { s with hostQueue := rdReg s.params .cmd :: rest } = .next { s with hostQueue := rest, readData := 0#32 }

/-! ### Registers (10_state) -/

/-- R24: the fields of `STATUS`, its reserved bits, its reset value, and that host writes to it are ignored. -/
def Obligations.StatusWordLayout : Prop :=
  (∀ s : State,
    (statusWord s).extractLsb' 0 4 = errNumber s.err ∧
    (statusWord s).getLsbD 4 = s.sess ∧
    (statusWord s).getLsbD 5 = s.term ∧
    ((statusWord s).getLsbD 6 = true ↔ s.agg = .accumulating) ∧
    (statusWord s).getLsbD 7 = false ∧
    (statusWord s).extractLsb' 8 8 = s.fill ∧
    (statusWord s).extractLsb' 16 16 = 0#16 ∧
    regRead s .status = statusWord s ∧
    ∀ v, regWrite v s .status = s) ∧
  statusWord State.reset = 0#32

/-- R180: the numbers of the result codes, that 9 to 15 are never produced, and which commands raise each error. -/
def Obligations.ResultCodesAndTheirCommands : Prop :=
  errNumber .ok = 0#4 ∧ errNumber .unrecognizedFrame = 1#4 ∧ errNumber .payloadTooLarge = 2#4 ∧
  errNumber .unsupportedCodec = 3#4 ∧ errNumber .sinkWriteFailure = 4#4 ∧ errNumber .illegalCommand = 5#4 ∧
  errNumber .noSession = 6#4 ∧ errNumber .sessionOpen = 7#4 ∧ errNumber .badParameter = 8#4 ∧
  (∀ e, (errNumber e).toNat ≤ 8) ∧
  (∀ (s : State) (rest : List HostEvent) (w : Word) (why : DecodeError), decode w = .error why →
    ∃ t, step { s with hostQueue := cmdWord s.params w :: rest } = .next t ∧ t.err = .illegalCommand) ∧
  ∀ (i : Instr) (s t : State), exec i s = .next t →
    (t.err = .unrecognizedFrame → i = .inspect ∨ i = .submit) ∧
    (t.err = .payloadTooLarge → i = .encapsulate ∨ i = .submit) ∧
    (t.err = .unsupportedCodec → i = .inspect ∨ i = .submit ∨ (i = .encapsulate ∧ s.term = true)) ∧
    (t.err = .sinkWriteFailure → i = .encapsulate ∨ i = .submit) ∧
    t.err ≠ .illegalCommand ∧
    (t.err = .noSession → frameCommand i = true ∧ s.sess = false) ∧
    (t.err = .sessionOpen → (∃ be c, i = .openSession be c) ∧ s.sess = true) ∧
    (t.err = .badParameter → frameCommand i = true)

/-- R25: the fields of `CFG`, the codecs its values name, its reset value, that host writes to it are ignored, and that
apart from reset only an OPEN with no session open changes it. -/
def Obligations.ConfigRegister : Prop :=
  (∀ s : State,
    (cfgWord s).getLsbD 0 = s.be ∧ (cfgWord s).extractLsb' 1 3 = s.codec ∧ (cfgWord s).extractLsb' 4 28 = 0#28 ∧
    regRead s .cfg = cfgWord s ∧ ∀ v, regWrite v s .cfg = s) ∧
  cfgWord State.reset = 0#32 ∧
  Codec.ofCode 0#3 = .ac3 ∧ Codec.ofCode 1#3 = .dts ∧ Codec.ofCode 2#3 = .adtsAac ∧
  (∀ k : BitVec 3, codecSupported k = true ↔ k.toNat < 3) ∧
  ∀ s t : State, step s = .next t → (t.be ≠ s.be ∨ t.codec ≠ s.codec) →
    fetch s = .access .reset ∨
    ∃ be c, fetch s = .command (.openSession be c) ∧ s.sess = false ∧ t.sess = true ∧ t.be = be ∧ t.codec = c.code

/-- R27: `STATUS.SESS` and `STATUS.TERM` change only through OPEN, CLOSE, the dispatch of INSPECT or SUBMIT, and reset. -/
def Obligations.SessionBitsWriters : Prop :=
  ∀ s t : State, step s = .next t →
    (t.sess ≠ s.sess →
      (∃ be c, fetch s = .command (.openSession be c)) ∨ fetch s = .command .closeSession ∨
        fetch s = .access .reset) ∧
    (t.term ≠ s.term →
      (∃ be c, fetch s = .command (.openSession be c)) ∨ fetch s = .command .closeSession ∨
        fetch s = .access .reset ∨
        ((fetch s = .command .inspect ∨ fetch s = .command .submit) ∧ s.sess = true ∧ 3 ≤ s.codec.toNat ∧
          t.term = true ∧ t.err = .unsupportedCodec))

/-- 10_state section 3 and 40_inspectors section 3 (frame and descriptor registers, WriteDesc): the word each descriptor
register reads as, which bits a HOST write reaches, and that ENCAPSULATE does not read `PROFILE`. -/
def Obligations.DescriptorRegisters : Prop :=
  (∀ (s : State) (d : Descriptor),
    regRead (writeDesc d s) .descType = d.type.setWidth 32 ∧
    regRead (writeDesc d s) .descLencode = d.lencode.setWidth 32 ∧
    regRead (writeDesc d s) .descOffset = d.offset ∧
    regRead (writeDesc d s) .descFlags =
      BitVec.ofNat 32 ((if d.xswap then 1 else 0) + (if d.pre then 2 else 0) + 256 * d.profile.toNat) ∧
    regRead (writeDesc d s) .descPeriod = d.period) ∧
  (∀ (s : State) (v : Word),
    regRead (regWrite v s .frameLen) .frameLen = v ∧
    regRead (regWrite v s .descType) .descType = v &&& 0x0000FFFF#32 ∧
    regRead (regWrite v s .descLencode) .descLencode = v &&& 0x0000FFFF#32 ∧
    regRead (regWrite v s .descOffset) .descOffset = v ∧
    regRead (regWrite v s .descFlags) .descFlags = v &&& 0x00000F03#32 ∧
    regRead (regWrite v s .descPeriod) .descPeriod = v) ∧
  ∀ (s : State) (q : BitVec 4),
    exec .encapsulate { s with desc := { s.desc with profile := q } } =
      mapNext (fun t => { t with desc := { t.desc with profile := q } }) (exec .encapsulate s)

/-- R22: the offset of each register from the base, its reset value and its access by the HOST, and the frame buffer's
place. -/
def Obligations.RegisterMap : Prop :=
  (∀ p : Params,
    target p (p.ibeBase + 0x000) 32 = .reg .cmd ∧ target p (p.ibeBase + 0x004) 32 = .reg .status ∧
    target p (p.ibeBase + 0x008) 32 = .reg .cfg ∧ target p (p.ibeBase + 0x00C) 32 = .reg .frameLen ∧
    target p (p.ibeBase + 0x010) 32 = .reg .descType ∧ target p (p.ibeBase + 0x014) 32 = .reg .descLencode ∧
    target p (p.ibeBase + 0x018) 32 = .reg .descOffset ∧ target p (p.ibeBase + 0x01C) 32 = .reg .descFlags ∧
    target p (p.ibeBase + 0x020) 32 = .reg .descPeriod ∧ target p (p.ibeBase + 0x024) 32 = .reg .burstLen ∧
    target p (p.ibeBase + 0x028) 32 = .reg .sinkAccepted ∧
    (∀ i, i < p.frameBufBytes → target p (p.ibeBase + 0x1000 + i) 8 = .cell i)) ∧
  (∀ r, regRead State.reset r = 0#32) ∧
  ∀ (s : State) (v : Word),
    regRead s .cmd = 0#32 ∧ regWrite v s .status = s ∧ regWrite v s .cfg = s ∧ regWrite v s .burstLen = s ∧
    regWrite v s .sinkAccepted = s ∧ (regWrite v s .frameLen).frameLen = v ∧
    (regWrite v s .descType).desc.type = v.setWidth 16 ∧ (regWrite v s .descLencode).desc.lencode = v.setWidth 16 ∧
    (regWrite v s .descOffset).desc.offset = v ∧ (regWrite v s .descPeriod).desc.period = v ∧
    (regWrite v s .descFlags).desc.xswap = v.getLsbD 0 ∧ (regWrite v s .descFlags).desc.pre = v.getLsbD 1 ∧
    (regWrite v s .descFlags).desc.profile = v.extractLsb' 8 4

/-! ### Host accesses (20_memory) -/

/-- R53, R54: an access, reading or writing, is refused exactly when it is neither an aligned 32-bit access in the register
space nor an 8-bit access in the frame buffer. -/
def Obligations.RefusedExactlyOutsideTheRules : Prop :=
  ∀ (s : State) (rest : List HostEvent) (o width : Nat) (v : Word) (e : HostEvent),
    (e = .read (s.params.ibeBase + o) width ∨ e = .write (s.params.ibeBase + o) width v) →
    ((∃ why, step { s with hostQueue := e :: rest } = .refused why) ↔
      ¬((o < 0x02C ∧ o % 4 = 0 ∧ width = 32) ∨
        (0x1000 ≤ o ∧ o < 0x1000 + s.params.frameBufBytes ∧ width = 8)))

/-- 20_memory section 2 (host accesses): a register access of another width or at a misaligned offset, a frame-buffer access
of another width, and an access outside both, below `IBE_BASE` too, is refused, reading or writing, and under which name; an
aligned 32-bit register access and an 8-bit frame-buffer access never are. The model's choices: that the width is named
before the alignment (log entry 13), and that an address below `IBE_BASE` is refused as unmapped (log entry 12). -/
def Obligations.RefusedAccesses : Prop :=
  ∀ (s : State) (rest : List HostEvent) (o width : Nat) (v : Word) (e : HostEvent),
    (e = .read (s.params.ibeBase + o) width ∨ e = .write (s.params.ibeBase + o) width v) →
    (o < 0x02C → width ≠ 32 →
      step { s with hostQueue := e :: rest } = .refused (.accessWidth o width)) ∧
    (o < 0x02C → width = 32 → o % 4 ≠ 0 →
      step { s with hostQueue := e :: rest } = .refused (.misaligned o)) ∧
    (0x1000 ≤ o → o < 0x1000 + s.params.frameBufBytes → width ≠ 8 →
      step { s with hostQueue := e :: rest } = .refused (.accessWidth o width)) ∧
    (0x02C ≤ o → ¬(0x1000 ≤ o ∧ o < 0x1000 + s.params.frameBufBytes) →
      step { s with hostQueue := e :: rest } = .refused (.unmapped (s.params.ibeBase + o))) ∧
    (((o < 0x02C ∧ width = 32 ∧ o % 4 = 0) ∨ (0x1000 ≤ o ∧ o < 0x1000 + s.params.frameBufBytes ∧ width = 8)) →
      ∀ why, step { s with hostQueue := e :: rest } ≠ .refused why) ∧
    ∀ (a : Nat) (e' : HostEvent), a < s.params.ibeBase → (e' = .read a width ∨ e' = .write a width v) →
      step { s with hostQueue := e' :: rest } = .refused (.unmapped a)

/-- 20_memory section 2 (host accesses): a HOST read returns the register or the byte and changes nothing of the block.
That a byte nothing has written reads as a free value, a fresh one each time, is the model's choice (log entry 7). -/
def Obligations.HostReadsHaveNoSideEffect : Prop :=
  ∀ (s : State) (rest : List HostEvent),
    (∀ r, step { s with hostQueue := rdReg s.params r :: rest } =
      .next { s with hostQueue := rest, readData := regRead s r }) ∧
    ∀ i, i < s.params.frameBufBytes →
      (∀ b, memRead s.fb i = some b →
        step { s with hostQueue := .read (s.params.ibeBase + 0x1000 + i) 8 :: rest } =
          .next { s with hostQueue := rest, readData := b.setWidth 32 }) ∧
      (memRead s.fb i = none →
        ∃ b : Byte, step { s with hostQueue := .read (s.params.ibeBase + 0x1000 + i) 8 :: rest } =
          .next { s with hostQueue := rest, readData := b.setWidth 32, draws := s.draws + 1 })

/-- 20_memory sections 1, 2 and 7: a HOST write of a frame-buffer byte reaches that byte, every other byte reads as
before, and nothing else of the block changes; a HOST write of a register other than `CMD` reaches that register, every
other register reads as before, and nothing else of the block changes. -/
def Obligations.HostWritesReachTheirPlace : Prop :=
  ∀ (s : State) (rest : List HostEvent),
    (∀ i b, i < s.params.frameBufBytes →
      ∃ m, step { s with hostQueue := wrByte s.params i b :: rest } = .next { s with hostQueue := rest, fb := m } ∧
        ∀ j, memRead m j = if j = i then some b else memRead s.fb j) ∧
    ∀ r v, r ≠ .cmd →
      ∃ t, step { s with hostQueue := wrReg s.params r v :: rest } = .next t ∧
        t = { regWrite v s r with hostQueue := rest } ∧
        (∀ q, q ≠ r → regRead t q = regRead s q) ∧
        t = { s with hostQueue := rest, frameLen := t.frameLen, desc := t.desc }

/-- 30_encoding section 4 (host pseudo-operations): after the accesses of `FRAME bs` the frame buffer holds the frame and
`FRAME_LEN` its length, so the frame a command then reads is `bs`. -/
def Obligations.FrameOpsLoadTheFrame : Prop :=
  ∀ (s : State) (bs : List Byte) (rest : List HostEvent),
    bs.length ≤ s.params.frameBufBytes → bs.length < 2 ^ 32 →
    ∃ t, Host.Core.run core (bs.length + 1) { s with hostQueue := frameOps s.params bs ++ rest } = .next t ∧
      t.hostQueue = rest ∧ t.frameLen = BitVec.ofNat 32 bs.length ∧ frameBytes t = .ok bs ∧
      ∀ j, bs.length ≤ j → memRead t.fb j = memRead s.fb j

/-! ### Reset (70_reset_and_hazards) -/

/-- R34, R200: reset sets every register to its reset value, clears the hidden state and leaves the stream alone. That
nothing is said of `ACC_PROFILE`, which the rules leave unspecified, is on purpose (log entry 8). -/
def Obligations.ResetValues : Prop :=
  ∀ (s : State) (rest : List HostEvent),
    ∃ t, step { s with hostQueue := .reset :: rest } = .next t ∧
      (∀ r, regRead t r = 0#32) ∧ t.err = .ok ∧ t.sess = false ∧ t.term = false ∧ t.agg = .empty ∧ t.fill = 0#8 ∧
      t.be = false ∧ t.codec = 0#3 ∧ t.acc = [] ∧ t.scratchCap = 0 ∧ (∀ i, memRead t.fb i = none) ∧
      t.stream = s.stream ∧ t.params = s.params ∧
      ({ t with
          accProfile := State.reset.accProfile
          stream := State.reset.stream
          params := State.reset.params
          hostQueue := State.reset.hostQueue
          readData := State.reset.readData
          sinkPlan := State.reset.sinkPlan
          draws := State.reset.draws } : State) = State.reset

/-! ### Sessions (42_session) -/

/-- R150, R190: OPEN with no session open fixes `CFG` and starts a session; in an open session it raises `SESSION_OPEN`
and leaves everything else unchanged. -/
def Obligations.OpenStartsASession : Prop :=
  ∀ (be : Bool) (codec : Codec) (s : State),
    encode (.openSession be codec) =
      0x1#32 ||| ((BitVec.ofBool be).setWidth 32 <<< 8) ||| (codec.code.setWidth 32 <<< 9) ∧
    cfgWord { s with be := be, codec := codec.code } =
      (BitVec.ofBool be).setWidth 32 ||| (codec.code.setWidth 32 <<< 1) ∧
    (s.sess = false →
      exec (.openSession be codec) s =
        .next { s with
          be := be, codec := codec.code, sess := true, term := false, agg := .empty, fill := 0#8, acc := []
          scratchCap := 0, err := .ok, burstLen := 0#32, sinkAccepted := 0#32 }) ∧
    (s.sess = true →
      exec (.openSession be codec) s =
        .next { s with err := .sessionOpen, burstLen := 0#32, sinkAccepted := 0#32 })

/-- R152: CLOSE ends the session and releases its buffers, from every state; `CFG` keeps its value. -/
def Obligations.CloseEndsTheSession : Prop :=
  encode .closeSession = 0x00000002#32 ∧
  ∀ s : State,
    exec .closeSession s =
      .next { s with
        sess := false, term := false, agg := .empty, fill := 0#8, acc := [], scratchCap := 0
        err := .ok, burstLen := 0#32, sinkAccepted := 0#32 }

/-- R156, R183: with a codec that has no inspector the first INSPECT or SUBMIT sets `TERM` and raises
`UNSUPPORTED_CODEC`; from then on every frame command raises it whatever `FB` holds, and only CLOSE and reset end that. -/
def Obligations.UnsupportedCodecIsTerminal : Prop :=
  ∀ s : State, s.sess = true →
    (s.term = false → 3 ≤ s.codec.toNat →
      exec .inspect s = .next (record .unsupportedCodec { s with term := true }) ∧
      exec .submit s = .next (record .unsupportedCodec { s with term := true })) ∧
    (s.term = true →
      exec .inspect s = .next (record .unsupportedCodec s) ∧
      exec .encapsulate s = .next (record .unsupportedCodec s) ∧
      exec .submit s = .next (record .unsupportedCodec s)) ∧
    (s.term = true → ∀ t, step s = .next t → fetch s ≠ .command .closeSession → fetch s ≠ .access .reset →
      t.term = true ∧ t.sess = true)

/-! ### Errors (60_exceptions) -/

/-- R189: a frame command with no session open raises `NO_SESSION`. -/
def Obligations.NoSessionForFrameCommands : Prop :=
  ∀ s : State, s.sess = false →
    exec .inspect s = .next (record .noSession s) ∧
    exec .encapsulate s = .next (record .noSession s) ∧
    exec .submit s = .next (record .noSession s)

/-- R186: the causes of `BAD_PARAMETER`; nothing is read from `FB` (the claim holds whatever `FB` holds) and nothing
is offered. -/
def Obligations.BadParameterCauses : Prop :=
  ∀ s : State, s.sess = true → s.term = false →
    (s.codec.toNat < 3 → s.params.frameBufBytes < s.frameLen.toNat →
      exec .inspect s = .next (record .badParameter s) ∧ exec .submit s = .next (record .badParameter s)) ∧
    ((s.params.frameBufBytes < s.frameLen.toNat ∨ s.frameLen.toNat < s.desc.offset.toNat ∨ s.desc.period = 0#32 ∨
        s.desc.period.toNat % 2 = 1) →
      exec .encapsulate s = .next (record .badParameter s))

/-- R181: the two causes of `UNRECOGNIZED_FRAME`, which leaves the descriptor, the accumulation and the stream alone. -/
def Obligations.UnrecognizedFrameCauses : Prop :=
  ∀ (s : State) (f : List Byte), s.sess = true → s.term = false → s.codec.toNat < 3 →
    s.frameLen.toNat ≤ s.params.frameBufBytes → frameBytes s = .ok f →
    (inspectAs s.params f (Codec.ofCode s.codec) = none →
      exec .inspect s = .next (record .unrecognizedFrame s) ∧
      exec .submit s = .next (record .unrecognizedFrame s)) ∧
    (∀ r, inspectAs s.params f (Codec.ofCode s.codec) = some r → s.fill ≠ 0#8 → r.profile ≠ s.accProfile →
      exec .submit s = .next (record .unrecognizedFrame s))

/-- R187: the error a command reports is the first one in the order of the rule. -/
def Obligations.ErrorPriority : Prop :=
  (∀ (s t : State) (rest : List HostEvent) (w : Word) (why : DecodeError), decode w = .error why →
    step { s with hostQueue := cmdWord s.params w :: rest } = .next t → t.err = .illegalCommand) ∧
  (∀ (s t : State) (be : Bool) (c : Codec), exec (.openSession be c) s = .next t →
    t.err = if s.sess then .sessionOpen else .ok) ∧
  (∀ s t : State, exec .closeSession s = .next t → t.err = .ok) ∧
  (∀ s t : State, exec .inspect s = .next t →
    t.err =
      if s.sess = false then .noSession
      else if s.term = true then .unsupportedCodec
      else if 3 ≤ s.codec.toNat then .unsupportedCodec
      else if s.params.frameBufBytes < s.frameLen.toNat then .badParameter
      else if (frameBytes s).toOption.bind (fun f => inspectAs s.params f (Codec.ofCode s.codec)) = none then
        .unrecognizedFrame
      else .ok) ∧
  (∀ s t : State, exec .encapsulate s = .next t →
    t.err =
      if s.sess = false then .noSession
      else if s.term = true then .unsupportedCodec
      else if s.params.frameBufBytes < s.frameLen.toNat then .badParameter
      else if s.frameLen.toNat < s.desc.offset.toNat then .badParameter
      else if s.desc.period.toNat = 0 ∨ s.desc.period.toNat % 2 = 1 then .badParameter
      else if s.desc.period.toNat < headLen s.desc.pre + ceil2 (s.frameLen.toNat - s.desc.offset.toNat) then
        .payloadTooLarge
      else if t.sinkAccepted.toNat < t.burstLen.toNat then .sinkWriteFailure
      else .ok) ∧
  (∀ s t : State, exec .submit s = .next t →
    t.err =
      if s.sess = false then .noSession
      else if s.term = true then .unsupportedCodec
      else if 3 ≤ s.codec.toNat then .unsupportedCodec
      else if s.params.frameBufBytes < s.frameLen.toNat then .badParameter
      else
        match (frameBytes s).toOption.bind (fun f => inspectAs s.params f (Codec.ofCode s.codec)) with
        | none => .unrecognizedFrame
        | some r =>
          if s.fill ≠ 0#8 ∧ r.profile ≠ s.accProfile then .unrecognizedFrame
          else if r.desc.period.toNat <
              headLen r.desc.pre +
                ceil2 ((if aggK s.params r.profile = 1 then 0 else s.acc.length) + s.frameLen.toNat) then
            .payloadTooLarge
          else if t.sinkAccepted.toNat < t.burstLen.toNat then .sinkWriteFailure
          else .ok)

/-- R188: a command that ends in an error other than `SINK_WRITE_FAILURE` records the code, clears `BURST_LEN` and
`SINK_ACCEPTED`, and changes nothing else but what its rule names: `TERM` at dispatch, `DESC_*` in a SUBMIT that then
fails to encapsulate. Every command either offered nothing, and then `BURST_LEN` and `SINK_ACCEPTED` are 0, or made one
offer, and then they are as the offer set them. -/
def Obligations.ErrorsArePrecise : Prop :=
  (∀ (i : Instr) (s t : State), exec i s = .next t →
    (t.stream = s.stream ∧ t.sinkPlan = s.sinkPlan ∧ t.draws = s.draws ∧ t.burstLen = 0#32 ∧ t.sinkAccepted = 0#32) ∨
    ∃ (B : List Byte) (a : Nat) (u : State), t = afterOffer B a u ∧ mayAccept s B.length a ∧ u.stream = s.stream ∧
      u.sinkPlan = s.sinkPlan ∧ u.draws = s.draws) ∧
  ∀ (i : Instr) (s t : State), exec i s = .next t → t.err ≠ .ok → t.err ≠ .sinkWriteFailure →
    t.burstLen = 0#32 ∧ t.sinkAccepted = 0#32 ∧
    t = { s with
      err := t.err, burstLen := 0#32, sinkAccepted := 0#32, desc := t.desc, term := t.term } ∧
    (t.desc ≠ s.desc → i = .submit ∧ t.err = .payloadTooLarge) ∧
    (t.term ≠ s.term → (i = .inspect ∨ i = .submit) ∧ t.err = .unsupportedCodec ∧ t.term = true)

/-- 42_session section 3 (errors are local to the frame): after a command that raised an error local to its frame, every
command does exactly what it would have done had the failed one never been issued; so it does after an illegal word, and
after `PAYLOAD_TOO_LARGE` of a SUBMIT but for `DESC_*`. After `SINK_WRITE_FAILURE` every command appends what it would have
appended, to a stream that holds the accepted prefix, and is else the same up to the scratch capacity; after that of a SUBMIT
but for `DESC_*` and the accumulation, which its flush has emptied. The SINK's next answer is taken to be the same
(`sinkPlan` and `draws`, the model's record of the SINK, log entry 3). -/
def Obligations.ErrorsAreLocal : Prop :=
  (∀ (i j : Instr) (s t : State), exec i s = .next t →
    (t.err = .unrecognizedFrame ∨ t.err = .badParameter ∨ t.err = .noSession ∨ t.err = .sessionOpen ∨
      (t.err = .payloadTooLarge ∧ i = .encapsulate)) →
    exec j t = exec j s) ∧
  (∀ (j : Instr) (s t : State) (rest : List HostEvent) (w : Word) (why : DecodeError), decode w = .error why →
    step { s with hostQueue := cmdWord s.params w :: rest } = .next t →
    exec j t = exec j { s with hostQueue := rest }) ∧
  (∀ (j : Instr) (s t : State), exec .submit s = .next t → t.err = .payloadTooLarge →
    exec j { t with desc := s.desc } = exec j s) ∧
  (∀ (j : Instr) (s t : State), exec .encapsulate s = .next t → t.err = .sinkWriteFailure →
    mapNext (pastStream t.stream.length) (exec j { t with sinkPlan := s.sinkPlan, draws := s.draws }) =
      mapNext (pastStream s.stream.length) (exec j s)) ∧
  ∀ (j : Instr) (s t : State), exec .submit s = .next t → t.err = .sinkWriteFailure →
    mapNext (pastStream t.stream.length)
      (exec j { t with
        sinkPlan := s.sinkPlan, draws := s.draws, desc := s.desc, acc := s.acc, accProfile := s.accProfile
        fill := s.fill, agg := s.agg }) =
      mapNext (pastStream s.stream.length) (exec j s)

/-- 60_exceptions section 6 (model-level outcomes): what the model stops on, and that it stops on nothing else. That
INSPECT and SUBMIT read the whole frame before they inspect it is read from their pseudocode (log entry 11). -/
def Obligations.StopsOnlyWhereNamed : Prop :=
  (∀ (i : Instr) (s : State) (f : Fault), exec i s = .fault f →
    frameCommand i = true ∧
    ((f = .sinkNeverAnswers ∧ i ≠ .inspect ∧ s.sinkPlan.head? = some .silent) ∨
      ∃ k, f = .unwrittenRead k ∧ k < s.frameLen.toNat ∧ memRead s.fb k = none)) ∧
  (∀ (i : Instr) (s : State) (r : Refusal), exec i s ≠ .refused r) ∧
  (∀ (i : Instr) (s : State) (k : Nat), (i = .inspect ∨ i = .submit) → s.sess = true → s.term = false →
    s.codec.toNat < 3 → s.frameLen.toNat ≤ s.params.frameBufBytes → k < s.frameLen.toNat → memRead s.fb k = none →
    ∃ j, j ≤ k ∧ memRead s.fb j = none ∧ exec i s = .fault (.unwrittenRead j)) ∧
  (∀ (s : State) (k : Nat), s.sess = true → s.term = false → s.frameLen.toNat ≤ s.params.frameBufBytes →
    s.desc.offset.toNat ≤ k → k < s.frameLen.toNat → s.desc.period.toNat ≠ 0 → s.desc.period.toNat % 2 = 0 →
    memRead s.fb k = none →
    ∃ j, s.desc.offset.toNat ≤ j ∧ j ≤ k ∧ memRead s.fb j = none ∧ exec .encapsulate s = .fault (.unwrittenRead j))

/-! ### Inspectors (40_inspectors) -/

/-- R96, R97: which frames the AC-3 inspector accepts, and the descriptor it gives. -/
def Obligations.InspectAc3Accepts : Prop :=
  defaultTable.ac3 = ⟨0x0001#16, 6144#32, 1⟩ ∧
  ∀ (p : Params) (f : List Byte) (r : Inspected),
    inspectAc3 p f = some r ↔
      ∃ b5 : Byte, 6 ≤ f.length ∧ f[0]? = some 0x0B#8 ∧ f[1]? = some 0x77#8 ∧ f[5]? = some b5 ∧ b5.toNat / 8 ≤ 10 ∧
        r = ⟨.ac3, ⟨p.table.ac3.typeCode ||| BitVec.ofNat 16 (b5.toNat % 8 * 256), BitVec.ofNat 16 (8 * f.length), 0#32,
          false, true, 0#4, p.table.ac3.period⟩⟩

/-- R100, R101, R102, R103: which frames the DTS inspector accepts, and the descriptor it gives; a frame that exactly fills
its period has no preamble under `DTS_RAW_FIT`, and one that then does not fit is refused by the encapsulator. -/
def Obligations.InspectDtsAccepts : Prop :=
  defaultTable.dtsI = ⟨0x000B#16, 2048#32, 1⟩ ∧ defaultTable.dtsII = ⟨0x000C#16, 4096#32, 1⟩ ∧
  defaultTable.dtsIII = ⟨0x000D#16, 8192#32, 1⟩ ∧
  (∀ (p : Params) (f : List Byte) (r : Inspected),
    inspectDts p f = some r ↔
      ∃ (nb : Nat) (x : Bool) (pr : Profile) (code : BitVec 4),
        ((f.take 4 = [0x7F#8, 0xFE#8, 0x80#8, 0x01#8] ∧ x = false ∧
            ∃ b4 b5 : Byte, f[4]? = some b4 ∧ f[5]? = some b5 ∧ nb = (b4.toNat * 256 + b5.toNat) / 4 % 128) ∨
          (f.take 4 = [0xFE#8, 0x7F#8, 0x01#8, 0x80#8] ∧ x = true ∧
            ∃ b4 b5 : Byte, f[4]? = some b4 ∧ f[5]? = some b5 ∧ nb = (b5.toNat * 256 + b4.toNat) / 4 % 128) ∨
          (f.take 4 = [0x1F#8, 0xFF#8, 0xE8#8, 0x00#8] ∧ x = false ∧
            ∃ b5 b6 : Byte, f[5]? = some b5 ∧ f[6]? = some b6 ∧ nb = b5.toNat % 8 * 16 + b6.toNat % 64 / 4) ∨
          (f.take 4 = [0xFF#8, 0x1F#8, 0x00#8, 0xE8#8] ∧ x = true ∧
            ∃ b4 b7 : Byte, f[4]? = some b4 ∧ f[7]? = some b7 ∧ nb = b4.toNat % 8 * 16 + b7.toNat % 64 / 4)) ∧
        ((nb + 1 = 16 ∧ pr = .dtsI ∧ code = 1#4) ∨ (nb + 1 = 32 ∧ pr = .dtsII ∧ code = 2#4) ∨
          (nb + 1 = 64 ∧ pr = .dtsIII ∧ code = 3#4)) ∧
        r = ⟨pr, ⟨(profileRow p pr).typeCode, BitVec.ofNat 16 (8 * f.length), 0#32, x,
          (if p.dtsRawFit = true ∧ f.length = (profileRow p pr).period.toNat then false else true), code,
          (profileRow p pr).period⟩⟩) ∧
  ∀ (s : State) (f : List Byte) (d : Descriptor), d.pre = true → d.period.toNat < f.length + 8 →
    emitBurst f d s = .next (record .payloadTooLarge s)

/-- R106, R107, R108, R109: which frames the ADTS-AAC inspector accepts, and the descriptor it gives. -/
def Obligations.InspectAacAccepts : Prop :=
  defaultTable.aac1 = ⟨0x0007#16, 4096#32, 1⟩ ∧ defaultTable.aac2 = ⟨0x0020#16, 8192#32, 1⟩ ∧
  defaultTable.aac4 = ⟨0x0033#16, 16384#32, 1⟩ ∧
  ∀ (p : Params) (f : List Byte) (r : Inspected),
    inspectAac p f = some r ↔
      ∃ (b1 b2 b3 b4 b5 b6 : Byte) (pr : Profile) (code : BitVec 4),
        7 ≤ f.length ∧ f[0]? = some 0xFF#8 ∧ f[1]? = some b1 ∧ f[2]? = some b2 ∧ f[3]? = some b3 ∧ f[4]? = some b4 ∧
        f[5]? = some b5 ∧ f[6]? = some b6 ∧ b1.toNat / 16 = 15 ∧ b2.toNat / 4 % 16 ≤ 12 ∧
        7 ≤ b3.toNat % 4 * 2048 + b4.toNat * 8 + b5.toNat / 32 ∧
        ((b6.toNat % 4 = 0 ∧ pr = .aac1 ∧ code = 4#4) ∨ (b6.toNat % 4 = 1 ∧ pr = .aac2 ∧ code = 5#4) ∨
          (b6.toNat % 4 = 3 ∧ pr = .aac4 ∧ code = 6#4)) ∧
        r = ⟨pr, ⟨(profileRow p pr).typeCode, BitVec.ofNat 16 (8 * f.length), 0#32, false, true, code,
          (profileRow p pr).period⟩⟩

/-- R93: every inspector gives offset 0 and the length code `(8 * N) mod 2^16`. -/
def Obligations.InspectorLengthCode : Prop :=
  ∀ (p : Params) (f : List Byte) (c : Codec) (r : Inspected), inspectAs p f c = some r →
    r.desc.offset = 0#32 ∧ r.desc.lencode.toNat = 8 * f.length % 2 ^ 16

/-- 40_inspectors sections 3 and 7: an inspector is a function of the frame's length and of its first eight bytes; no
CRC, no later byte is checked. -/
def Obligations.InspectorsReadEightBytes : Prop :=
  ∀ (p : Params) (f g : List Byte) (c : Codec), f.length = g.length → f.take 8 = g.take 8 →
    inspectAs p f c = inspectAs p g c

/-- R90: INSPECT, its encoding, its checks in order, and its result; it touches neither the accumulation nor the SINK. -/
def Obligations.InspectLoadsTheDescriptor : Prop :=
  encode .inspect = 0x00000003#32 ∧
  ∀ s : State,
    (s.sess = false → exec .inspect s = .next (record .noSession s)) ∧
    (s.sess = true → s.term = true → exec .inspect s = .next (record .unsupportedCodec s)) ∧
    (s.sess = true → s.term = false → 3 ≤ s.codec.toNat →
      exec .inspect s = .next (record .unsupportedCodec { s with term := true })) ∧
    (s.sess = true → s.term = false → s.codec.toNat < 3 →
      (s.params.frameBufBytes < s.frameLen.toNat → exec .inspect s = .next (record .badParameter s)) ∧
      (s.frameLen = 0#32 → exec .inspect s = .next (record .unrecognizedFrame s)) ∧
      (s.frameLen.toNat ≤ s.params.frameBufBytes → ∀ f, frameBytes s = .ok f →
        (inspectAs s.params f (Codec.ofCode s.codec) = none →
          exec .inspect s = .next (record .unrecognizedFrame s)) ∧
        ∀ r, inspectAs s.params f (Codec.ofCode s.codec) = some r →
          exec .inspect s =
            .next { s with desc := r.desc, err := .ok, burstLen := 0#32, sinkAccepted := 0#32 }))

/-! ### The burst (41_encapsulator) -/

/-- R121: the 16-bit writer puts the most significant byte first when `CFG.BE = 1` and last otherwise. -/
def Obligations.W16Order : Prop :=
  ∀ v : Half,
    w16 true v = [BitVec.ofNat 8 (v.toNat / 256), BitVec.ofNat 8 (v.toNat % 256)] ∧
    w16 false v = [BitVec.ofNat 8 (v.toNat % 256), BitVec.ofNat 8 (v.toNat / 256)]

/-- R122: an enabled preamble is Pa, Pb, Pc, Pd through the writer, at the head of the burst; without it the burst begins
with the payload. -/
def Obligations.PreambleLeadsTheBurst : Prop :=
  defaultParams.syncA = 0xF872#16 ∧ defaultParams.syncB = 0x4E1F#16 ∧
  (∀ (p : Params) (be : Bool) (P : List Byte) (d : Descriptor),
    (d.pre = true →
      (burst p be P d).take 8 = w16 be p.syncA ++ w16 be p.syncB ++ w16 be d.type ++ w16 be d.lencode) ∧
    (d.pre = false → body (swapPayload p be d.xswap) P <+: burst p be P d)) ∧
  ∀ (P : List Byte) (d : Descriptor), d.pre = true →
    (burst defaultParams false P d).take 4 = [0x72#8, 0xF8#8, 0x1F#8, 0x4E#8] ∧
    (burst defaultParams true P d).take 4 = [0xF8#8, 0x72#8, 0x4E#8, 0x1F#8]

/-- R123, R124: each whole pair of the payload stands after the preamble, swapped exactly when `xswap XOR BE` is 1 (the
`DOCUMENT` sense) or 0 (the `INVERTED` sense). -/
def Obligations.PayloadPairs : Prop :=
  defaultParams.swapSense = .document ∧
  ∀ (p : Params) (be : Bool) (P : List Byte) (d : Descriptor) (j : Nat), 2 * j + 1 < P.length →
    (((p.swapSense = .document ∧ d.xswap ≠ be) ∨ (p.swapSense = .inverted ∧ d.xswap = be)) →
      (burst p be P d)[headLen d.pre + 2 * j]? = P[2 * j + 1]? ∧
      (burst p be P d)[headLen d.pre + 2 * j + 1]? = P[2 * j]?) ∧
    (((p.swapSense = .document ∧ d.xswap = be) ∨ (p.swapSense = .inverted ∧ d.xswap ≠ be)) →
      (burst p be P d)[headLen d.pre + 2 * j]? = P[2 * j]? ∧
      (burst p be P d)[headLen d.pre + 2 * j + 1]? = P[2 * j + 1]?)

/-- R125: the last byte of an odd payload is the most significant half of one more 16-bit unit, in the order of `CFG.BE`
alone; an even payload has no such unit. -/
def Obligations.TrailingUnit : Prop :=
  (∀ (p : Params) (P : List Byte) (d : Descriptor) (b : Byte), P.length % 2 = 1 → P.getLast? = some b →
    ((burst p true P d)[headLen d.pre + (P.length - 1)]? = some b ∧
      (burst p true P d)[headLen d.pre + P.length]? = some 0x00#8) ∧
    ((burst p false P d)[headLen d.pre + (P.length - 1)]? = some 0x00#8 ∧
      (burst p false P d)[headLen d.pre + P.length]? = some b)) ∧
  ∀ (be : Bool) (P : List Byte), P.length % 2 = 0 → trail be P = []

/-- R126: a burst whose size before padding exceeds the period is refused with `PAYLOAD_TOO_LARGE`; nothing is offered and
nothing but the recording changes. -/
def Obligations.OversizeIsRefused : Prop :=
  (∀ (P : List Byte) (d : Descriptor) (s : State),
    d.period.toNat < (if d.pre then 8 else 0) + (P.length + P.length % 2) →
    emitBurst P d s = .next (record .payloadTooLarge s)) ∧
  ∀ (s : State) (P : List Byte), s.sess = true → s.term = false → s.frameLen.toNat ≤ s.params.frameBufBytes →
    s.desc.offset.toNat ≤ s.frameLen.toNat → s.desc.period.toNat ≠ 0 → s.desc.period.toNat % 2 = 0 →
    payloadBytes s = .ok P → s.desc.period.toNat < (if s.desc.pre then 8 else 0) + (P.length + P.length % 2) →
    exec .encapsulate s = .next (record .payloadTooLarge s)

/-- R127: a burst that fits has exactly the period's length, and every byte from its size on is zero. -/
def Obligations.PaddingFillsThePeriod : Prop :=
  ∀ (p : Params) (be : Bool) (P : List Byte) (d : Descriptor),
    headLen d.pre + ceil2 P.length ≤ d.period.toNat →
    (burst p be P d).length = d.period.toNat ∧
    ∀ k, headLen d.pre + ceil2 P.length ≤ k → k < d.period.toNat → (burst p be P d)[k]? = some 0x00#8

/-- 41_encapsulator section 7 (round trip): reading the units of a burst in `CFG.BE`'s order gives back the four preamble
fields, and the last byte of an odd payload as the upper byte of its unit. -/
def Obligations.PreambleRoundTrip : Prop :=
  ∀ (p : Params) (be : Bool) (P : List Byte) (d : Descriptor),
    (d.pre = true →
      ∃ a b c e f g h i : Byte, (burst p be P d).take 8 = [a, b, c, e, f, g, h, i] ∧
        unitAt be a b = p.syncA ∧ unitAt be c e = p.syncB ∧ unitAt be f g = d.type ∧ unitAt be h i = d.lencode) ∧
    (∀ b, P.length % 2 = 1 → P.getLast? = some b →
      ∃ x y : Byte, (burst p be P d)[headLen d.pre + (P.length - 1)]? = some x ∧
        (burst p be P d)[headLen d.pre + P.length]? = some y ∧ (unitAt be x y).toNat = 256 * b.toNat)

/-- R120: ENCAPSULATE, its encoding, its checks in order, and its result: one burst offered to the SINK, of which any
prefix may be accepted. -/
def Obligations.EncapsulateOffersOneBurst : Prop :=
  encode .encapsulate = 0x00000004#32 ∧
  ∀ s : State,
    (s.sess = false → exec .encapsulate s = .next (record .noSession s)) ∧
    (s.sess = true → s.term = true → exec .encapsulate s = .next (record .unsupportedCodec s)) ∧
    (s.sess = true → s.term = false →
      ((s.params.frameBufBytes < s.frameLen.toNat ∨ s.frameLen.toNat < s.desc.offset.toNat ∨
          s.desc.period.toNat = 0 ∨ s.desc.period.toNat % 2 = 1) →
        exec .encapsulate s = .next (record .badParameter s)) ∧
      (s.frameLen.toNat ≤ s.params.frameBufBytes → s.desc.offset.toNat ≤ s.frameLen.toNat →
        s.desc.period.toNat ≠ 0 → s.desc.period.toNat % 2 = 0 → ∀ P, payloadBytes s = .ok P →
        P.length = s.frameLen.toNat - s.desc.offset.toNat ∧
        (s.desc.period.toNat < headLen s.desc.pre + ceil2 P.length →
          exec .encapsulate s = .next (record .payloadTooLarge s)) ∧
        (headLen s.desc.pre + ceil2 P.length ≤ s.desc.period.toNat →
          s.sinkPlan.head? = some .silent → exec .encapsulate s = .fault .sinkNeverAnswers) ∧
        (headLen s.desc.pre + ceil2 P.length ≤ s.desc.period.toNat →
          s.sinkPlan.head? ≠ some .silent →
          ∃ a, mayAccept s s.desc.period.toNat a ∧
            exec .encapsulate s =
              .next (afterOffer (burst s.params s.be P s.desc) a
                (growScratch (swapPayload s.params s.be s.desc.xswap) P.length s)))))

/-- R155: SUBMIT, its encoding, its checks in order, the descriptor it loads, and, where one frame makes one burst, that
burst; where several do, it aggregates. -/
def Obligations.SubmitOffersOneBurst : Prop :=
  encode .submit = 0x00000005#32 ∧
  ∀ s : State,
    (s.sess = false → exec .submit s = .next (record .noSession s)) ∧
    (s.sess = true → s.term = true → exec .submit s = .next (record .unsupportedCodec s)) ∧
    (s.sess = true → s.term = false → 3 ≤ s.codec.toNat →
      exec .submit s = .next (record .unsupportedCodec { s with term := true })) ∧
    (s.sess = true → s.term = false → s.codec.toNat < 3 →
      (s.params.frameBufBytes < s.frameLen.toNat → exec .submit s = .next (record .badParameter s)) ∧
      (s.frameLen.toNat ≤ s.params.frameBufBytes → ∀ f, frameBytes s = .ok f →
        (inspectAs s.params f (Codec.ofCode s.codec) = none →
          exec .submit s = .next (record .unrecognizedFrame s)) ∧
        ∀ r, inspectAs s.params f (Codec.ofCode s.codec) = some r →
          (s.fill ≠ 0#8 → r.profile ≠ s.accProfile → exec .submit s = .next (record .unrecognizedFrame s)) ∧
          ((s.fill = 0#8 ∨ r.profile = s.accProfile) → aggK s.params r.profile = 1 →
            (r.desc.period.toNat < headLen r.desc.pre + ceil2 f.length →
              exec .submit s = .next (record .payloadTooLarge (writeDesc r.desc s))) ∧
            (headLen r.desc.pre + ceil2 f.length ≤ r.desc.period.toNat → s.sinkPlan.head? ≠ some .silent →
              ∃ a, mayAccept s r.desc.period.toNat a ∧
                exec .submit s =
                  .next (afterOffer (burst s.params s.be f r.desc) a
                    (growScratch (swapPayload s.params s.be r.desc.xswap) f.length (writeDesc r.desc s))))) ∧
          ((s.fill = 0#8 ∨ r.profile = s.accProfile) → aggK s.params r.profile ≠ 1 →
            exec .submit s = aggregate f r (aggK s.params r.profile) (writeDesc r.desc s))))

/-- R157: what a sub-frame does: refused where the joined payload does not fit, kept where sub-frames are still missing,
and otherwise flushed as one burst of the joined sub-frames under the last one's descriptor with the joined length. `FILL + 1` fits its 8 bits wherever the invariant holds, since
`FILL < AGG_K` and `AGG_K` is at most 255. -/
def Obligations.AggregationJoinsAndFlushes : Prop :=
  ∀ (P : List Byte) (r : Inspected) (k : Nat) (s : State), s.fill.toNat < 255 →
    (r.desc.period.toNat < headLen r.desc.pre + ceil2 (s.acc.length + P.length) →
      aggregate P r k s = .next (record .payloadTooLarge s)) ∧
    (headLen r.desc.pre + ceil2 (s.acc.length + P.length) ≤ r.desc.period.toNat → s.fill.toNat + 1 < k →
      aggregate P r k s =
        .next { s with
          acc := s.acc ++ P, accProfile := r.profile, fill := BitVec.ofNat 8 (s.fill.toNat + 1), agg := .accumulating
          err := .ok, burstLen := 0#32, sinkAccepted := 0#32 }) ∧
    (headLen r.desc.pre + ceil2 (s.acc.length + P.length) ≤ r.desc.period.toNat → k ≤ s.fill.toNat + 1 →
      s.sinkPlan.head? ≠ some .silent →
      ∃ a, mayAccept s r.desc.period.toNat a ∧
        aggregate P r k s =
          .next (afterOffer
            (burst s.params s.be (s.acc ++ P)
              { r.desc with lencode := BitVec.ofNat 16 (8 * (s.acc.length + P.length)) }) a
            (growScratch (swapPayload s.params s.be r.desc.xswap) (s.acc.length + P.length)
              { s with acc := [], accProfile := r.profile, fill := 0#8, agg := .empty })))

/-- 42_session section 3 (the aggregation states as the HOST sees them): a SUBMIT leaves the accumulation alone, or adds one
sub-frame to it and emits nothing, or completes it: the accumulation is empty again and one burst was offered. -/
def Obligations.AggregationStates : Prop :=
  ∀ s t : State, StateInv s → exec .submit s = .next t →
    (t.fill = s.fill ∧ t.acc = s.acc ∧ t.agg = s.agg ∧ t.accProfile = s.accProfile) ∨
    (t.err = .ok ∧ t.agg = .accumulating ∧ t.fill.toNat = s.fill.toNat + 1 ∧ t.stream = s.stream ∧
      s.acc <+: t.acc ∧ t.fill.toNat < aggK s.params t.accProfile) ∨
    (t.agg = .empty ∧ t.fill = 0#8 ∧ t.acc = [] ∧ aggK s.params t.accProfile = s.fill.toNat + 1 ∧
      t.burstLen = t.desc.period ∧ (t.err = .ok ∨ t.err = .sinkWriteFailure))

/-! ### The SINK -/

/-- R55: an offer to a SINK that never answers is stuck; any other ends with a count from 0 to the length, which is a draw:
every such count is the answer for some SINK. -/
def Obligations.SinkOfferIsADraw : Prop :=
  ∀ (B : List Byte) (s : State),
    (s.sinkPlan.head? = some .silent → sinkOffer B s = .fault .sinkNeverAnswers) ∧
    (s.sinkPlan.head? ≠ some .silent → ∃ a, mayAccept s B.length a ∧ sinkOffer B s = .next (afterOffer B a s)) ∧
    ∀ (a : Nat) (rest : List SinkAnswer), a ≤ B.length →
      sinkOffer B { s with sinkPlan := .accepts a :: rest } =
        .next { s with
          sinkPlan := rest, stream := s.stream ++ B.take a, burstLen := BitVec.ofNat 32 B.length
          sinkAccepted := BitVec.ofNat 32 a, err := if a < B.length then .sinkWriteFailure else .ok }

/-- R29: every command writes `BURST_LEN`, the length of what it offered (0 if nothing), and `SINK_ACCEPTED`, how many
bytes of it joined the stream; the accepted prefix is short exactly when the command reports `SINK_WRITE_FAILURE`. -/
def Obligations.OfferIsReported : Prop :=
  (∀ (i : Instr) (s t : State), exec i s = .next t →
    ∃ B : List Byte, t.burstLen.toNat = B.length ∧ t.sinkAccepted.toNat ≤ B.length ∧
      t.stream = s.stream ++ B.take t.sinkAccepted.toNat ∧
      (t.err = .sinkWriteFailure ↔ t.sinkAccepted.toNat < t.burstLen.toNat)) ∧
  ∀ (s : State) (v : Word), regWrite v s .burstLen = s ∧ regWrite v s .sinkAccepted = s

/-- 41_encapsulator section 7 (idempotence of configuration): the same frame encapsulated twice gives the same bytes twice. -/
def Obligations.EncapsulateTwice : Prop :=
  ∀ s t : State, exec .encapsulate s = .next t → t.err = .ok →
    ∃ B : List Byte, B.length = s.desc.period.toNat ∧ t.stream = s.stream ++ B ∧
      ∀ u, exec .encapsulate t = .next u → u.err = .ok → u.stream = s.stream ++ B ++ B

/-! ### What no output depends on -/

/-- 10_state section 5: nothing in the block reads `STATUS.ERR`, `BURST_LEN` or `SINK_ACCEPTED`, and every command writes
all three. -/
def Obligations.ResultRegistersAreNotRead : Prop :=
  ∀ (i : Instr) (s : State) (e : ErrCode) (b a : Word),
    exec i { s with err := e, burstLen := b, sinkAccepted := a } = exec i s

/-- 41_encapsulator section 6 (the scratch buffer): no output depends on `SCRATCH_CAP`. -/
def Obligations.ScratchIsNotRead : Prop :=
  ∀ (i : Instr) (s : State) (n : Nat),
    mapNext hideScratch (exec i { s with scratchCap := n }) = mapNext hideScratch (exec i s)

/-- 10_state sections 4 and 6: `ACC_PROFILE` is not read while `FILL = 0`, so its value at reset (log entry 8) matters to
nothing. -/
def Obligations.IdleProfileIsNotRead : Prop :=
  ∀ (i : Instr) (s : State) (pr : Profile), s.fill = 0#8 →
    mapNext hideIdleProfile (exec i { s with accProfile := pr }) = mapNext hideIdleProfile (exec i s)

/-- 20_memory section 1 (core reads of FB): a command never writes `FB`, and reads it below `FRAME_LEN` only: two buffers
that agree there give the same outcome. -/
def Obligations.CoreReadsOnlyTheFrame : Prop :=
  (∀ (i : Instr) (s t : State), exec i s = .next t → t.fb = s.fb) ∧
  ∀ (i : Instr) (s : State) (m : Memory), (∀ k, k < s.frameLen.toNat → memRead m k = memRead s.fb k) →
    mapNext hideFb (exec i { s with fb := m }) = mapNext hideFb (exec i s)

/-! ### Whole-machine rules -/

/-- The invariant of Safety.lean is kept by every step, from every state that meets it: the canonical frame buffer, the
relations between the session bits and the aggregation, and the report of the last offer. -/
def Obligations.StepKeepsInv : Prop :=
  ∀ s t : State, StateInv s → step s = .next t → StateInv t

/-- The state after reset meets the invariant. It rests on the reset parameters, of which `FRAME_BUF_BYTES` is the model's
choice (log entry 5). -/
def Obligations.ResetMeetsInv : Prop := StateInv State.reset

/-- 20_memory section 1 and 00_scope section 3: the stream is only appended to and the parameters never change, in any
step. That a step with no HOST access left changes nothing is the model's choice (log entry 2). -/
def Obligations.StreamOnlyGrows : Prop :=
  (∀ s t : State, step s = .next t → s.stream <+: t.stream ∧ t.params = s.params) ∧
  ∀ s : State, s.hostQueue = [] → step s = .next s

/-! ### Frames: what each command leaves unchanged -/

/-- OPEN and CLOSE (42_session section 1) change the session's own registers and buffers, and no descriptor register, no
byte of the frame buffer and nothing of the stream. CLOSE leaves `CFG` alone. -/
def Obligations.FrameOfOpenAndClose : Prop :=
  ∀ (i : Instr) (s t : State), (i = .closeSession ∨ ∃ be c, i = .openSession be c) → exec i s = .next t →
    t.frameLen = s.frameLen ∧ t.desc = s.desc ∧ (∀ k, memRead t.fb k = memRead s.fb k) ∧ t.stream = s.stream ∧
    t.accProfile = s.accProfile ∧ t.params = s.params ∧ t.hostQueue = s.hostQueue ∧ t.readData = s.readData ∧
    t.sinkPlan = s.sinkPlan ∧ t.draws = s.draws ∧ t.burstLen = 0#32 ∧ t.sinkAccepted = 0#32 ∧
    (i = .closeSession → t.be = s.be ∧ t.codec = s.codec)

/-- INSPECT (40_inspectors section 1) changes `STATUS.ERR`, `BURST_LEN`, `SINK_ACCEPTED`, the descriptor registers, and
`TERM` on the unsupported-codec path, and nothing else. -/
def Obligations.FrameOfInspect : Prop :=
  ∀ s t : State, exec .inspect s = .next t →
    t.sess = s.sess ∧ t.agg = s.agg ∧ t.fill = s.fill ∧ t.be = s.be ∧ t.codec = s.codec ∧ t.frameLen = s.frameLen ∧
    (∀ k, memRead t.fb k = memRead s.fb k) ∧ t.acc = s.acc ∧ t.accProfile = s.accProfile ∧
    t.scratchCap = s.scratchCap ∧ t.stream = s.stream ∧ t.params = s.params ∧ t.hostQueue = s.hostQueue ∧
    t.readData = s.readData ∧ t.sinkPlan = s.sinkPlan ∧ t.draws = s.draws ∧ t.burstLen = 0#32 ∧
    t.sinkAccepted = 0#32 ∧ (t.err ≠ .ok → t.desc = s.desc) ∧ (t.err ≠ .unsupportedCodec → t.term = s.term)

/-- ENCAPSULATE (41_encapsulator section 1) changes `STATUS.ERR`, `BURST_LEN`, `SINK_ACCEPTED`, the scratch capacity and
the stream (and the model's record of the SINK), and nothing else. -/
def Obligations.FrameOfEncapsulate : Prop :=
  ∀ s t : State, exec .encapsulate s = .next t →
    t.sess = s.sess ∧ t.term = s.term ∧ t.agg = s.agg ∧ t.fill = s.fill ∧ t.be = s.be ∧ t.codec = s.codec ∧
    t.frameLen = s.frameLen ∧ t.desc = s.desc ∧ (∀ k, memRead t.fb k = memRead s.fb k) ∧ t.acc = s.acc ∧
    t.accProfile = s.accProfile ∧ s.scratchCap ≤ t.scratchCap ∧ t.params = s.params ∧ t.hostQueue = s.hostQueue ∧
    t.readData = s.readData ∧
    (t.err ≠ .ok → t.err ≠ .sinkWriteFailure → t.stream = s.stream ∧ t.scratchCap = s.scratchCap)

/-- SUBMIT (42_session section 2) changes `STATUS.ERR`, `BURST_LEN`, `SINK_ACCEPTED`, the descriptor registers once
inspection succeeds, `TERM` on the unsupported-codec path, the accumulation, the scratch capacity and the stream, and
nothing else. -/
def Obligations.FrameOfSubmit : Prop :=
  ∀ s t : State, exec .submit s = .next t →
    t.sess = s.sess ∧ t.be = s.be ∧ t.codec = s.codec ∧ t.frameLen = s.frameLen ∧
    (∀ k, memRead t.fb k = memRead s.fb k) ∧ t.params = s.params ∧ t.hostQueue = s.hostQueue ∧
    t.readData = s.readData ∧ s.scratchCap ≤ t.scratchCap ∧ (t.err ≠ .unsupportedCodec → t.term = s.term) ∧
    (t.err ≠ .ok → t.err ≠ .sinkWriteFailure →
      t.stream = s.stream ∧ t.acc = s.acc ∧ t.accProfile = s.accProfile ∧ t.fill = s.fill ∧ t.agg = s.agg ∧
      t.scratchCap = s.scratchCap) ∧
    (t.err ≠ .ok → t.err ≠ .sinkWriteFailure → t.err ≠ .payloadTooLarge → t.desc = s.desc)
end

