-- ==== Sys2Proof/Laws/Burst.lean ====
section
/-! SUPPORT. Sizes and shape of the parts of a burst (41_encapsulator). -/

namespace Sys2Proof.Machine

@[simp] theorem w16_length (be : Bool) (v : Half) : (w16 be v).length = 2 := by
  cases be <;> rfl

@[simp] theorem preamble_length (p : Params) (be : Bool) (d : Descriptor) : (preamble p be d).length = 8 := by
  simp [preamble]

theorem body_length (swap : Bool) (xs : List Byte) : (body swap xs).length = 2 * (xs.length / 2) := by
  induction xs using body.induct with
  | case1 a b rest ih =>
    cases swap <;> simp [body, ih] <;> omega
  | case2 xs h =>
    match xs with
    | [] => rfl
    | [_] => simp [body]
    | a :: b :: r => exact absurd rfl (h a b r)

theorem trail_length (be : Bool) (xs : List Byte) : (trail be xs).length = 2 * (xs.length % 2) := by
  unfold trail
  split
  · rename_i h
    simp [List.getLast?_eq_none_iff.1 h]
  · split
    · rename_i h
      simp [h]
    · rename_i h
      simp [show xs.length % 2 = 0 by omega]

/-- A burst that fits is exactly one period long (41_encapsulator R127, R128). -/
theorem burst_length (p : Params) (be : Bool) (xs : List Byte) (d : Descriptor)
    (h : burstSize d.pre xs.length ≤ d.period.toNat) : (burst p be xs d).length = d.period.toNat := by
  unfold burst
  have hpre : (if d.pre then preamble p be d else []).length = if d.pre then 8 else 0 := by
    split <;> simp
  simp only [List.length_append, body_length, trail_length, List.length_replicate, hpre]
  unfold burstSize ceil2 at *
  split at h <;> simp_all <;> omega

end Sys2Proof.Machine
end

