-- ==== Sys2Proof/Laws/Bus.lean ====
section
/-! SUPPORT. Which register or cell a HOST access reaches, and what an access that starts no command can change. -/

namespace Sys2Proof.Machine

/-- An aligned 32-bit access at a register's offset reaches that register. -/
theorem target_reg (p : Params) (r : RegName) : target p (p.ibeBase + regOffset r) 32 = .reg r := by
  have h : regOffset r < regSpaceEnd := by cases r <;> decide
  have h2 : regAt (regOffset r) = some r := by cases r <;> decide
  simp [target, targetAt, h, h2]

/-- An 8-bit access inside the frame buffer reaches its cell. -/
theorem target_cell (p : Params) (i : Nat) (h : i < p.frameBufBytes) :
    target p (p.ibeBase + fbOffset + i) 8 = .cell i := by
  have e : p.ibeBase + fbOffset + i - p.ibeBase = fbOffset + i := by omega
  have e2 : ¬ (p.ibeBase + fbOffset + i < p.ibeBase) := by omega
  have e3 : ¬ (fbOffset + i < regSpaceEnd) := by unfold fbOffset regSpaceEnd; omega
  simp [target, targetAt, e, e2, e3, h]

/-- A write of a word to `CMD` starts that word. -/
@[simp] theorem commandOf_cmdWord (p : Params) (w : Word) : commandOf p (cmdWord p w) = some w := by
  simp [commandOf, cmdWord, wrReg, target_reg]

/-- A register write changes `FRAME_LEN` and the descriptor registers at most. -/
theorem regWrite_shape (v : Word) (s : State) (r : RegName) :
    regWrite v s r = { s with frameLen := (regWrite v s r).frameLen, desc := (regWrite v s r).desc } := by
  cases r <;> rfl

/-- An access below `IBE_BASE` reaches nothing. -/
theorem target_below (p : Params) {a : Nat} (width : Nat) (h : a < p.ibeBase) :
    target p a width = .nothing (.unmapped a) := by
  simp [target, h]

/-- What an access that starts no command and ends in a next state did: a reset, or a change of nothing but `FRAME_LEN`, the
descriptor registers, one written byte of the frame buffer, and the model's record of the read. -/
theorem hostAccess_next {e : HostEvent} {s t : State} (h : hostAccess e s = .next t) :
    (e = .reset ∧ t = applyReset s) ∨
    ∃ (m : Memory) (d : Descriptor) (len : Word) (rd : Word) (n : Nat),
      t = { s with fb := m, desc := d, frameLen := len, readData := rd, draws := n } ∧
      (m = s.fb ∨ ∃ i b, i < s.params.frameBufBytes ∧ m = memWrite s.fb i b) := by
  cases e with
  | reset =>
    cases h
    exact .inl ⟨rfl, rfl⟩
  | read addr w =>
    simp only [hostAccess, hostRead] at h
    split at h
    · cases h
      exact .inr ⟨_, _, _, _, _, rfl, .inl rfl⟩
    · split at h
      · cases h
        exact .inr ⟨_, _, _, _, _, rfl, .inl rfl⟩
      · cases h
        exact .inr ⟨_, _, _, _, _, rfl, .inl rfl⟩
    · cases h
  | write addr w v =>
    simp only [hostAccess, hostWrite] at h
    split at h
    · rename_i r _
      cases h
      cases r <;> exact .inr ⟨_, _, _, _, _, rfl, .inl rfl⟩
    · rename_i i hi
      cases h
      refine .inr ⟨_, _, _, _, _, rfl, .inr ⟨i, _, ?_, rfl⟩⟩
      unfold target targetAt at hi
      split at hi
      · cases hi
      · split at hi
        · split at hi
          · cases hi
          · split at hi <;> cases hi
        · split at hi
          · split at hi
            · cases hi
            · have := Target.cell.inj hi
              omega
          · cases hi
    · cases h

/-- A HOST access is never a fault. -/
theorem hostAccess_not_fault {e : HostEvent} {s : State} {f : Fault} : hostAccess e s ≠ .fault f := by
  cases e with
  | reset => simp [hostAccess]
  | read addr w =>
    simp only [hostAccess, hostRead]
    split
    · simp
    · split <;> simp
    · simp
  | write addr w v =>
    simp only [hostAccess, hostWrite]
    split <;> simp

end Sys2Proof.Machine
end

