-- ==== Sys2Proof/Laws/Memory.lean ====
section
/-! SUPPORT. The laws of the frame buffer: a read after a write, the canonical form kept by every write, and what a
range read answers. -/

namespace Sys2Proof.Machine

theorem memRead_memWrite (m : Memory) (i j : Nat) (v : Byte) :
    memRead (memWrite m i v) j = if j = i then some v else memRead m j := by
  induction m with
  | nil => simp [memWrite, memRead, eq_comm]
  | cons c m ih =>
    obtain ⟨a, b⟩ := c
    by_cases h1 : i < a
    · simp [memWrite, h1, memRead, eq_comm]
    · by_cases h2 : i = a
      · subst h2
        by_cases h3 : j = i
        · simp [memWrite, memRead, h3]
        · simp [memWrite, memRead, h3, Ne.symm h3]
      · simp only [memWrite, h1, h2, if_false, memRead, ih]
        by_cases h3 : a = j
        · subst h3
          simp [Ne.symm h2]
        · simp [h3]

theorem mem_memWrite {m : Memory} {i : Nat} {v : Byte} {c : Host.Cell} (h : c ∈ memWrite m i v) :
    c = (i, v) ∨ c ∈ m := by
  induction m with
  | nil => simpa [memWrite] using h
  | cons d m ih =>
    obtain ⟨a, b⟩ := d
    simp only [memWrite] at h
    split at h
    · simpa using h
    · split at h
      · rcases List.mem_cons.1 h with h | h
        · exact .inl h
        · exact .inr (List.mem_cons_of_mem _ h)
      · rcases List.mem_cons.1 h with h | h
        · exact .inr (h ▸ List.mem_cons_self)
        · exact (ih h).imp id (List.mem_cons_of_mem _)

/-- Every write keeps the canonical form. -/
theorem memWrite_wf {m : Memory} (h : Memory.wf m) (i : Nat) (v : Byte) : Memory.wf (memWrite m i v) := by
  induction m with
  | nil => simp [memWrite, Memory.wf]
  | cons c m ih =>
    obtain ⟨a, b⟩ := c
    obtain ⟨hlt, hm⟩ := List.pairwise_cons.1 h
    simp only [memWrite]
    split
    · rename_i hia
      refine List.pairwise_cons.2 ⟨fun x hx => ?_, h⟩
      rcases List.mem_cons.1 hx with rfl | hx
      · exact hia
      · exact Nat.lt_trans hia (hlt x hx)
    · split
      · rename_i hia
        exact List.pairwise_cons.2 ⟨fun x hx => hia ▸ hlt x hx, hm⟩
      · refine List.pairwise_cons.2 ⟨fun x hx => ?_, ih hm⟩
        rcases mem_memWrite hx with rfl | hx
        · show a < i
          omega
        · exact hlt x hx

/-- The frame buffer after reset is in its canonical form. -/
theorem reset_fb_wf : Memory.wf State.reset.fb := List.Pairwise.nil

theorem memRead_mem {m : Memory} {i : Nat} {b : Byte} (h : memRead m i = some b) : (i, b) ∈ m := by
  induction m with
  | nil => simp [memRead] at h
  | cons c m ih =>
    obtain ⟨a, x⟩ := c
    simp only [memRead] at h
    split at h
    · rename_i ha
      simp_all
    · exact List.mem_cons_of_mem _ (ih h)

/-- What a range read that answers bytes has read. -/
theorem readRange_ok {m : Memory} {off n : Nat} {bs : List Byte} (h : readRange m off n = .ok bs) :
    bs.length = n ∧ ∀ k, k < n → memRead m (off + k) = bs[k]? := by
  induction n generalizing off bs with
  | zero =>
    cases h
    simp
  | succ n ih =>
    simp only [readRange] at h
    split at h
    · cases h
    · rename_i b hb
      split at h
      · cases h
      · rename_i bs' hbs
        cases h
        obtain ⟨hl, hk⟩ := ih hbs
        refine ⟨by simp [hl], fun k hk' => ?_⟩
        cases k with
        | zero => simpa using hb
        | succ k =>
          have := hk k (by omega)
          rw [show off + 1 + k = off + (k + 1) by omega] at this
          simpa using this

/-- A range read answers when every byte of the range was written. -/
theorem readRange_of_written {m : Memory} {off n : Nat} (h : ∀ k, k < n → memRead m (off + k) ≠ none) :
    ∃ bs, readRange m off n = .ok bs := by
  induction n generalizing off with
  | zero => exact ⟨[], rfl⟩
  | succ n ih =>
    have h0 := h 0 (by omega)
    obtain ⟨b, hb⟩ := Option.ne_none_iff_exists'.1 h0
    obtain ⟨bs, hbs⟩ := ih (off := off + 1) fun k hk => by
      have := h (k + 1) (by omega)
      rwa [show off + (k + 1) = off + 1 + k by omega] at this
    exact ⟨b :: bs, by simp only [Nat.add_zero] at hb; simp [readRange, hb, hbs]⟩

/-- A range read that faults names a byte of the range that nothing wrote, every byte before it being written. -/
theorem readRange_error {m : Memory} {off n : Nat} {f : Fault} (h : readRange m off n = .error f) :
    ∃ i, f = .unwrittenRead i ∧ off ≤ i ∧ i < off + n ∧ memRead m i = none := by
  induction n generalizing off with
  | zero => cases h
  | succ n ih =>
    simp only [readRange] at h
    split at h
    · rename_i hb
      cases h
      exact ⟨off, rfl, le_rfl, by omega, hb⟩
    · split at h
      · rename_i f' hf
        cases h
        obtain ⟨i, rfl, h1, h2, h3⟩ := ih hf
        exact ⟨i, rfl, by omega, by omega, h3⟩
      · cases h

/-- A range read depends on the bytes of the range alone. -/
theorem readRange_congr {m m' : Memory} {off n : Nat} (h : ∀ k, off ≤ k → k < off + n → memRead m' k = memRead m k) :
    readRange m' off n = readRange m off n := by
  induction n generalizing off with
  | zero => rfl
  | succ n ih =>
    simp only [readRange]
    rw [h off le_rfl (by omega), ih fun k h1 h2 => h k (by omega) (by omega)]

end Sys2Proof.Machine
end

