-- ==== Sys2Proof/Laws/State.lean ====
section
/-! SUPPORT. One lemma per field of the state per named update: what the update leaves there. -/

namespace Sys2Proof.Machine

@[simp] theorem record_err (e : ErrCode) (s : State) : (record e s).err = e := rfl
@[simp] theorem record_sess (e : ErrCode) (s : State) : (record e s).sess = s.sess := rfl
@[simp] theorem record_term (e : ErrCode) (s : State) : (record e s).term = s.term := rfl
@[simp] theorem record_agg (e : ErrCode) (s : State) : (record e s).agg = s.agg := rfl
@[simp] theorem record_fill (e : ErrCode) (s : State) : (record e s).fill = s.fill := rfl
@[simp] theorem record_be (e : ErrCode) (s : State) : (record e s).be = s.be := rfl
@[simp] theorem record_codec (e : ErrCode) (s : State) : (record e s).codec = s.codec := rfl
@[simp] theorem record_frameLen (e : ErrCode) (s : State) : (record e s).frameLen = s.frameLen := rfl
@[simp] theorem record_desc (e : ErrCode) (s : State) : (record e s).desc = s.desc := rfl
@[simp] theorem record_burstLen (e : ErrCode) (s : State) : (record e s).burstLen = 0#32 := rfl
@[simp] theorem record_sinkAccepted (e : ErrCode) (s : State) : (record e s).sinkAccepted = 0#32 := rfl
@[simp] theorem record_fb (e : ErrCode) (s : State) : (record e s).fb = s.fb := rfl
@[simp] theorem record_acc (e : ErrCode) (s : State) : (record e s).acc = s.acc := rfl
@[simp] theorem record_accProfile (e : ErrCode) (s : State) : (record e s).accProfile = s.accProfile := rfl
@[simp] theorem record_scratchCap (e : ErrCode) (s : State) : (record e s).scratchCap = s.scratchCap := rfl
@[simp] theorem record_stream (e : ErrCode) (s : State) : (record e s).stream = s.stream := rfl
@[simp] theorem record_params (e : ErrCode) (s : State) : (record e s).params = s.params := rfl
@[simp] theorem record_hostQueue (e : ErrCode) (s : State) : (record e s).hostQueue = s.hostQueue := rfl
@[simp] theorem record_readData (e : ErrCode) (s : State) : (record e s).readData = s.readData := rfl
@[simp] theorem record_sinkPlan (e : ErrCode) (s : State) : (record e s).sinkPlan = s.sinkPlan := rfl
@[simp] theorem record_draws (e : ErrCode) (s : State) : (record e s).draws = s.draws := rfl

@[simp] theorem recordOffer_err (len a : Nat) (s : State) : (recordOffer len a s).err = if a < len then .sinkWriteFailure else .ok := rfl
@[simp] theorem recordOffer_sess (len a : Nat) (s : State) : (recordOffer len a s).sess = s.sess := rfl
@[simp] theorem recordOffer_term (len a : Nat) (s : State) : (recordOffer len a s).term = s.term := rfl
@[simp] theorem recordOffer_agg (len a : Nat) (s : State) : (recordOffer len a s).agg = s.agg := rfl
@[simp] theorem recordOffer_fill (len a : Nat) (s : State) : (recordOffer len a s).fill = s.fill := rfl
@[simp] theorem recordOffer_be (len a : Nat) (s : State) : (recordOffer len a s).be = s.be := rfl
@[simp] theorem recordOffer_codec (len a : Nat) (s : State) : (recordOffer len a s).codec = s.codec := rfl
@[simp] theorem recordOffer_frameLen (len a : Nat) (s : State) : (recordOffer len a s).frameLen = s.frameLen := rfl
@[simp] theorem recordOffer_desc (len a : Nat) (s : State) : (recordOffer len a s).desc = s.desc := rfl
@[simp] theorem recordOffer_burstLen (len a : Nat) (s : State) : (recordOffer len a s).burstLen = BitVec.ofNat 32 len := rfl
@[simp] theorem recordOffer_sinkAccepted (len a : Nat) (s : State) : (recordOffer len a s).sinkAccepted = BitVec.ofNat 32 a := rfl
@[simp] theorem recordOffer_fb (len a : Nat) (s : State) : (recordOffer len a s).fb = s.fb := rfl
@[simp] theorem recordOffer_acc (len a : Nat) (s : State) : (recordOffer len a s).acc = s.acc := rfl
@[simp] theorem recordOffer_accProfile (len a : Nat) (s : State) : (recordOffer len a s).accProfile = s.accProfile := rfl
@[simp] theorem recordOffer_scratchCap (len a : Nat) (s : State) : (recordOffer len a s).scratchCap = s.scratchCap := rfl
@[simp] theorem recordOffer_stream (len a : Nat) (s : State) : (recordOffer len a s).stream = s.stream := rfl
@[simp] theorem recordOffer_params (len a : Nat) (s : State) : (recordOffer len a s).params = s.params := rfl
@[simp] theorem recordOffer_hostQueue (len a : Nat) (s : State) : (recordOffer len a s).hostQueue = s.hostQueue := rfl
@[simp] theorem recordOffer_readData (len a : Nat) (s : State) : (recordOffer len a s).readData = s.readData := rfl
@[simp] theorem recordOffer_sinkPlan (len a : Nat) (s : State) : (recordOffer len a s).sinkPlan = s.sinkPlan := rfl
@[simp] theorem recordOffer_draws (len a : Nat) (s : State) : (recordOffer len a s).draws = s.draws := rfl

@[simp] theorem clearSession_err (s : State) : (clearSession s).err = s.err := rfl
@[simp] theorem clearSession_sess (s : State) : (clearSession s).sess = s.sess := rfl
@[simp] theorem clearSession_term (s : State) : (clearSession s).term = false := rfl
@[simp] theorem clearSession_agg (s : State) : (clearSession s).agg = .empty := rfl
@[simp] theorem clearSession_fill (s : State) : (clearSession s).fill = 0#8 := rfl
@[simp] theorem clearSession_be (s : State) : (clearSession s).be = s.be := rfl
@[simp] theorem clearSession_codec (s : State) : (clearSession s).codec = s.codec := rfl
@[simp] theorem clearSession_frameLen (s : State) : (clearSession s).frameLen = s.frameLen := rfl
@[simp] theorem clearSession_desc (s : State) : (clearSession s).desc = s.desc := rfl
@[simp] theorem clearSession_burstLen (s : State) : (clearSession s).burstLen = s.burstLen := rfl
@[simp] theorem clearSession_sinkAccepted (s : State) : (clearSession s).sinkAccepted = s.sinkAccepted := rfl
@[simp] theorem clearSession_fb (s : State) : (clearSession s).fb = s.fb := rfl
@[simp] theorem clearSession_acc (s : State) : (clearSession s).acc = [] := rfl
@[simp] theorem clearSession_accProfile (s : State) : (clearSession s).accProfile = s.accProfile := rfl
@[simp] theorem clearSession_scratchCap (s : State) : (clearSession s).scratchCap = 0 := rfl
@[simp] theorem clearSession_stream (s : State) : (clearSession s).stream = s.stream := rfl
@[simp] theorem clearSession_params (s : State) : (clearSession s).params = s.params := rfl
@[simp] theorem clearSession_hostQueue (s : State) : (clearSession s).hostQueue = s.hostQueue := rfl
@[simp] theorem clearSession_readData (s : State) : (clearSession s).readData = s.readData := rfl
@[simp] theorem clearSession_sinkPlan (s : State) : (clearSession s).sinkPlan = s.sinkPlan := rfl
@[simp] theorem clearSession_draws (s : State) : (clearSession s).draws = s.draws := rfl

@[simp] theorem writeDesc_err (d : Descriptor) (s : State) : (writeDesc d s).err = s.err := rfl
@[simp] theorem writeDesc_sess (d : Descriptor) (s : State) : (writeDesc d s).sess = s.sess := rfl
@[simp] theorem writeDesc_term (d : Descriptor) (s : State) : (writeDesc d s).term = s.term := rfl
@[simp] theorem writeDesc_agg (d : Descriptor) (s : State) : (writeDesc d s).agg = s.agg := rfl
@[simp] theorem writeDesc_fill (d : Descriptor) (s : State) : (writeDesc d s).fill = s.fill := rfl
@[simp] theorem writeDesc_be (d : Descriptor) (s : State) : (writeDesc d s).be = s.be := rfl
@[simp] theorem writeDesc_codec (d : Descriptor) (s : State) : (writeDesc d s).codec = s.codec := rfl
@[simp] theorem writeDesc_frameLen (d : Descriptor) (s : State) : (writeDesc d s).frameLen = s.frameLen := rfl
@[simp] theorem writeDesc_desc (d : Descriptor) (s : State) : (writeDesc d s).desc = d := rfl
@[simp] theorem writeDesc_burstLen (d : Descriptor) (s : State) : (writeDesc d s).burstLen = s.burstLen := rfl
@[simp] theorem writeDesc_sinkAccepted (d : Descriptor) (s : State) : (writeDesc d s).sinkAccepted = s.sinkAccepted := rfl
@[simp] theorem writeDesc_fb (d : Descriptor) (s : State) : (writeDesc d s).fb = s.fb := rfl
@[simp] theorem writeDesc_acc (d : Descriptor) (s : State) : (writeDesc d s).acc = s.acc := rfl
@[simp] theorem writeDesc_accProfile (d : Descriptor) (s : State) : (writeDesc d s).accProfile = s.accProfile := rfl
@[simp] theorem writeDesc_scratchCap (d : Descriptor) (s : State) : (writeDesc d s).scratchCap = s.scratchCap := rfl
@[simp] theorem writeDesc_stream (d : Descriptor) (s : State) : (writeDesc d s).stream = s.stream := rfl
@[simp] theorem writeDesc_params (d : Descriptor) (s : State) : (writeDesc d s).params = s.params := rfl
@[simp] theorem writeDesc_hostQueue (d : Descriptor) (s : State) : (writeDesc d s).hostQueue = s.hostQueue := rfl
@[simp] theorem writeDesc_readData (d : Descriptor) (s : State) : (writeDesc d s).readData = s.readData := rfl
@[simp] theorem writeDesc_sinkPlan (d : Descriptor) (s : State) : (writeDesc d s).sinkPlan = s.sinkPlan := rfl
@[simp] theorem writeDesc_draws (d : Descriptor) (s : State) : (writeDesc d s).draws = s.draws := rfl

@[simp] theorem appendSubframe_err (p : List Byte) (pr : Profile) (s : State) : (appendSubframe p pr s).err = s.err := rfl
@[simp] theorem appendSubframe_sess (p : List Byte) (pr : Profile) (s : State) : (appendSubframe p pr s).sess = s.sess := rfl
@[simp] theorem appendSubframe_term (p : List Byte) (pr : Profile) (s : State) : (appendSubframe p pr s).term = s.term := rfl
@[simp] theorem appendSubframe_agg (p : List Byte) (pr : Profile) (s : State) : (appendSubframe p pr s).agg = s.agg := rfl
@[simp] theorem appendSubframe_fill (p : List Byte) (pr : Profile) (s : State) : (appendSubframe p pr s).fill = s.fill + 1#8 := rfl
@[simp] theorem appendSubframe_be (p : List Byte) (pr : Profile) (s : State) : (appendSubframe p pr s).be = s.be := rfl
@[simp] theorem appendSubframe_codec (p : List Byte) (pr : Profile) (s : State) : (appendSubframe p pr s).codec = s.codec := rfl
@[simp] theorem appendSubframe_frameLen (p : List Byte) (pr : Profile) (s : State) : (appendSubframe p pr s).frameLen = s.frameLen := rfl
@[simp] theorem appendSubframe_desc (p : List Byte) (pr : Profile) (s : State) : (appendSubframe p pr s).desc = s.desc := rfl
@[simp] theorem appendSubframe_burstLen (p : List Byte) (pr : Profile) (s : State) : (appendSubframe p pr s).burstLen = s.burstLen := rfl
@[simp] theorem appendSubframe_sinkAccepted (p : List Byte) (pr : Profile) (s : State) : (appendSubframe p pr s).sinkAccepted = s.sinkAccepted := rfl
@[simp] theorem appendSubframe_fb (p : List Byte) (pr : Profile) (s : State) : (appendSubframe p pr s).fb = s.fb := rfl
@[simp] theorem appendSubframe_acc (p : List Byte) (pr : Profile) (s : State) : (appendSubframe p pr s).acc = s.acc ++ p := rfl
@[simp] theorem appendSubframe_accProfile (p : List Byte) (pr : Profile) (s : State) : (appendSubframe p pr s).accProfile = pr := rfl
@[simp] theorem appendSubframe_scratchCap (p : List Byte) (pr : Profile) (s : State) : (appendSubframe p pr s).scratchCap = s.scratchCap := rfl
@[simp] theorem appendSubframe_stream (p : List Byte) (pr : Profile) (s : State) : (appendSubframe p pr s).stream = s.stream := rfl
@[simp] theorem appendSubframe_params (p : List Byte) (pr : Profile) (s : State) : (appendSubframe p pr s).params = s.params := rfl
@[simp] theorem appendSubframe_hostQueue (p : List Byte) (pr : Profile) (s : State) : (appendSubframe p pr s).hostQueue = s.hostQueue := rfl
@[simp] theorem appendSubframe_readData (p : List Byte) (pr : Profile) (s : State) : (appendSubframe p pr s).readData = s.readData := rfl
@[simp] theorem appendSubframe_sinkPlan (p : List Byte) (pr : Profile) (s : State) : (appendSubframe p pr s).sinkPlan = s.sinkPlan := rfl
@[simp] theorem appendSubframe_draws (p : List Byte) (pr : Profile) (s : State) : (appendSubframe p pr s).draws = s.draws := rfl

@[simp] theorem emptyAccumulator_err (s : State) : (emptyAccumulator s).err = s.err := rfl
@[simp] theorem emptyAccumulator_sess (s : State) : (emptyAccumulator s).sess = s.sess := rfl
@[simp] theorem emptyAccumulator_term (s : State) : (emptyAccumulator s).term = s.term := rfl
@[simp] theorem emptyAccumulator_agg (s : State) : (emptyAccumulator s).agg = .empty := rfl
@[simp] theorem emptyAccumulator_fill (s : State) : (emptyAccumulator s).fill = 0#8 := rfl
@[simp] theorem emptyAccumulator_be (s : State) : (emptyAccumulator s).be = s.be := rfl
@[simp] theorem emptyAccumulator_codec (s : State) : (emptyAccumulator s).codec = s.codec := rfl
@[simp] theorem emptyAccumulator_frameLen (s : State) : (emptyAccumulator s).frameLen = s.frameLen := rfl
@[simp] theorem emptyAccumulator_desc (s : State) : (emptyAccumulator s).desc = s.desc := rfl
@[simp] theorem emptyAccumulator_burstLen (s : State) : (emptyAccumulator s).burstLen = s.burstLen := rfl
@[simp] theorem emptyAccumulator_sinkAccepted (s : State) : (emptyAccumulator s).sinkAccepted = s.sinkAccepted := rfl
@[simp] theorem emptyAccumulator_fb (s : State) : (emptyAccumulator s).fb = s.fb := rfl
@[simp] theorem emptyAccumulator_acc (s : State) : (emptyAccumulator s).acc = [] := rfl
@[simp] theorem emptyAccumulator_accProfile (s : State) : (emptyAccumulator s).accProfile = s.accProfile := rfl
@[simp] theorem emptyAccumulator_scratchCap (s : State) : (emptyAccumulator s).scratchCap = s.scratchCap := rfl
@[simp] theorem emptyAccumulator_stream (s : State) : (emptyAccumulator s).stream = s.stream := rfl
@[simp] theorem emptyAccumulator_params (s : State) : (emptyAccumulator s).params = s.params := rfl
@[simp] theorem emptyAccumulator_hostQueue (s : State) : (emptyAccumulator s).hostQueue = s.hostQueue := rfl
@[simp] theorem emptyAccumulator_readData (s : State) : (emptyAccumulator s).readData = s.readData := rfl
@[simp] theorem emptyAccumulator_sinkPlan (s : State) : (emptyAccumulator s).sinkPlan = s.sinkPlan := rfl
@[simp] theorem emptyAccumulator_draws (s : State) : (emptyAccumulator s).draws = s.draws := rfl

@[simp] theorem popEvent_err (s : State) : (popEvent s).err = s.err := rfl
@[simp] theorem popEvent_sess (s : State) : (popEvent s).sess = s.sess := rfl
@[simp] theorem popEvent_term (s : State) : (popEvent s).term = s.term := rfl
@[simp] theorem popEvent_agg (s : State) : (popEvent s).agg = s.agg := rfl
@[simp] theorem popEvent_fill (s : State) : (popEvent s).fill = s.fill := rfl
@[simp] theorem popEvent_be (s : State) : (popEvent s).be = s.be := rfl
@[simp] theorem popEvent_codec (s : State) : (popEvent s).codec = s.codec := rfl
@[simp] theorem popEvent_frameLen (s : State) : (popEvent s).frameLen = s.frameLen := rfl
@[simp] theorem popEvent_desc (s : State) : (popEvent s).desc = s.desc := rfl
@[simp] theorem popEvent_burstLen (s : State) : (popEvent s).burstLen = s.burstLen := rfl
@[simp] theorem popEvent_sinkAccepted (s : State) : (popEvent s).sinkAccepted = s.sinkAccepted := rfl
@[simp] theorem popEvent_fb (s : State) : (popEvent s).fb = s.fb := rfl
@[simp] theorem popEvent_acc (s : State) : (popEvent s).acc = s.acc := rfl
@[simp] theorem popEvent_accProfile (s : State) : (popEvent s).accProfile = s.accProfile := rfl
@[simp] theorem popEvent_scratchCap (s : State) : (popEvent s).scratchCap = s.scratchCap := rfl
@[simp] theorem popEvent_stream (s : State) : (popEvent s).stream = s.stream := rfl
@[simp] theorem popEvent_params (s : State) : (popEvent s).params = s.params := rfl
@[simp] theorem popEvent_hostQueue (s : State) : (popEvent s).hostQueue = s.hostQueue.tail := rfl
@[simp] theorem popEvent_readData (s : State) : (popEvent s).readData = s.readData := rfl
@[simp] theorem popEvent_sinkPlan (s : State) : (popEvent s).sinkPlan = s.sinkPlan := rfl
@[simp] theorem popEvent_draws (s : State) : (popEvent s).draws = s.draws := rfl

@[simp] theorem applyReset_err (s : State) : (applyReset s).err = State.reset.err := rfl
@[simp] theorem applyReset_sess (s : State) : (applyReset s).sess = State.reset.sess := rfl
@[simp] theorem applyReset_term (s : State) : (applyReset s).term = State.reset.term := rfl
@[simp] theorem applyReset_agg (s : State) : (applyReset s).agg = State.reset.agg := rfl
@[simp] theorem applyReset_fill (s : State) : (applyReset s).fill = State.reset.fill := rfl
@[simp] theorem applyReset_be (s : State) : (applyReset s).be = State.reset.be := rfl
@[simp] theorem applyReset_codec (s : State) : (applyReset s).codec = State.reset.codec := rfl
@[simp] theorem applyReset_frameLen (s : State) : (applyReset s).frameLen = State.reset.frameLen := rfl
@[simp] theorem applyReset_desc (s : State) : (applyReset s).desc = State.reset.desc := rfl
@[simp] theorem applyReset_burstLen (s : State) : (applyReset s).burstLen = State.reset.burstLen := rfl
@[simp] theorem applyReset_sinkAccepted (s : State) : (applyReset s).sinkAccepted = State.reset.sinkAccepted := rfl
@[simp] theorem applyReset_fb (s : State) : (applyReset s).fb = State.reset.fb := rfl
@[simp] theorem applyReset_acc (s : State) : (applyReset s).acc = State.reset.acc := rfl
@[simp] theorem applyReset_accProfile (s : State) : (applyReset s).accProfile = State.reset.accProfile := rfl
@[simp] theorem applyReset_scratchCap (s : State) : (applyReset s).scratchCap = State.reset.scratchCap := rfl
@[simp] theorem applyReset_stream (s : State) : (applyReset s).stream = s.stream := rfl
@[simp] theorem applyReset_params (s : State) : (applyReset s).params = s.params := rfl
@[simp] theorem applyReset_hostQueue (s : State) : (applyReset s).hostQueue = s.hostQueue := rfl
@[simp] theorem applyReset_readData (s : State) : (applyReset s).readData = s.readData := rfl
@[simp] theorem applyReset_sinkPlan (s : State) : (applyReset s).sinkPlan = s.sinkPlan := rfl
@[simp] theorem applyReset_draws (s : State) : (applyReset s).draws = s.draws := rfl

@[simp] theorem growScratch_err (b : Bool) (n : Nat) (s : State) : (growScratch b n s).err = s.err := by
  unfold growScratch
  split <;> rfl

@[simp] theorem growScratch_sess (b : Bool) (n : Nat) (s : State) : (growScratch b n s).sess = s.sess := by
  unfold growScratch
  split <;> rfl

@[simp] theorem growScratch_term (b : Bool) (n : Nat) (s : State) : (growScratch b n s).term = s.term := by
  unfold growScratch
  split <;> rfl

@[simp] theorem growScratch_agg (b : Bool) (n : Nat) (s : State) : (growScratch b n s).agg = s.agg := by
  unfold growScratch
  split <;> rfl

@[simp] theorem growScratch_fill (b : Bool) (n : Nat) (s : State) : (growScratch b n s).fill = s.fill := by
  unfold growScratch
  split <;> rfl

@[simp] theorem growScratch_be (b : Bool) (n : Nat) (s : State) : (growScratch b n s).be = s.be := by
  unfold growScratch
  split <;> rfl

@[simp] theorem growScratch_codec (b : Bool) (n : Nat) (s : State) : (growScratch b n s).codec = s.codec := by
  unfold growScratch
  split <;> rfl

@[simp] theorem growScratch_frameLen (b : Bool) (n : Nat) (s : State) : (growScratch b n s).frameLen = s.frameLen := by
  unfold growScratch
  split <;> rfl

@[simp] theorem growScratch_desc (b : Bool) (n : Nat) (s : State) : (growScratch b n s).desc = s.desc := by
  unfold growScratch
  split <;> rfl

@[simp] theorem growScratch_burstLen (b : Bool) (n : Nat) (s : State) : (growScratch b n s).burstLen = s.burstLen := by
  unfold growScratch
  split <;> rfl

@[simp] theorem growScratch_sinkAccepted (b : Bool) (n : Nat) (s : State) : (growScratch b n s).sinkAccepted = s.sinkAccepted := by
  unfold growScratch
  split <;> rfl

@[simp] theorem growScratch_fb (b : Bool) (n : Nat) (s : State) : (growScratch b n s).fb = s.fb := by
  unfold growScratch
  split <;> rfl

@[simp] theorem growScratch_acc (b : Bool) (n : Nat) (s : State) : (growScratch b n s).acc = s.acc := by
  unfold growScratch
  split <;> rfl

@[simp] theorem growScratch_accProfile (b : Bool) (n : Nat) (s : State) : (growScratch b n s).accProfile = s.accProfile := by
  unfold growScratch
  split <;> rfl

@[simp] theorem growScratch_scratchCap (b : Bool) (n : Nat) (s : State) :
    (growScratch b n s).scratchCap = if b = true ∧ 2 ≤ n ∧ s.scratchCap < n then n else s.scratchCap := by
  unfold growScratch
  split <;> rfl

@[simp] theorem growScratch_stream (b : Bool) (n : Nat) (s : State) : (growScratch b n s).stream = s.stream := by
  unfold growScratch
  split <;> rfl

@[simp] theorem growScratch_params (b : Bool) (n : Nat) (s : State) : (growScratch b n s).params = s.params := by
  unfold growScratch
  split <;> rfl

@[simp] theorem growScratch_hostQueue (b : Bool) (n : Nat) (s : State) : (growScratch b n s).hostQueue = s.hostQueue := by
  unfold growScratch
  split <;> rfl

@[simp] theorem growScratch_readData (b : Bool) (n : Nat) (s : State) : (growScratch b n s).readData = s.readData := by
  unfold growScratch
  split <;> rfl

@[simp] theorem growScratch_sinkPlan (b : Bool) (n : Nat) (s : State) : (growScratch b n s).sinkPlan = s.sinkPlan := by
  unfold growScratch
  split <;> rfl

@[simp] theorem growScratch_draws (b : Bool) (n : Nat) (s : State) : (growScratch b n s).draws = s.draws := by
  unfold growScratch
  split <;> rfl

@[simp] theorem afterOffer_err (bs : List Byte) (a : Nat) (s : State) :
    (afterOffer bs a s).err = if a < bs.length then .sinkWriteFailure else .ok := rfl

@[simp] theorem afterOffer_sess (bs : List Byte) (a : Nat) (s : State) :
    (afterOffer bs a s).sess = s.sess := rfl

@[simp] theorem afterOffer_term (bs : List Byte) (a : Nat) (s : State) :
    (afterOffer bs a s).term = s.term := rfl

@[simp] theorem afterOffer_agg (bs : List Byte) (a : Nat) (s : State) :
    (afterOffer bs a s).agg = s.agg := rfl

@[simp] theorem afterOffer_fill (bs : List Byte) (a : Nat) (s : State) :
    (afterOffer bs a s).fill = s.fill := rfl

@[simp] theorem afterOffer_be (bs : List Byte) (a : Nat) (s : State) :
    (afterOffer bs a s).be = s.be := rfl

@[simp] theorem afterOffer_codec (bs : List Byte) (a : Nat) (s : State) :
    (afterOffer bs a s).codec = s.codec := rfl

@[simp] theorem afterOffer_frameLen (bs : List Byte) (a : Nat) (s : State) :
    (afterOffer bs a s).frameLen = s.frameLen := rfl

@[simp] theorem afterOffer_desc (bs : List Byte) (a : Nat) (s : State) :
    (afterOffer bs a s).desc = s.desc := rfl

@[simp] theorem afterOffer_burstLen (bs : List Byte) (a : Nat) (s : State) :
    (afterOffer bs a s).burstLen = BitVec.ofNat 32 bs.length := rfl

@[simp] theorem afterOffer_sinkAccepted (bs : List Byte) (a : Nat) (s : State) :
    (afterOffer bs a s).sinkAccepted = BitVec.ofNat 32 a := rfl

@[simp] theorem afterOffer_fb (bs : List Byte) (a : Nat) (s : State) :
    (afterOffer bs a s).fb = s.fb := rfl

@[simp] theorem afterOffer_acc (bs : List Byte) (a : Nat) (s : State) :
    (afterOffer bs a s).acc = s.acc := rfl

@[simp] theorem afterOffer_accProfile (bs : List Byte) (a : Nat) (s : State) :
    (afterOffer bs a s).accProfile = s.accProfile := rfl

@[simp] theorem afterOffer_scratchCap (bs : List Byte) (a : Nat) (s : State) :
    (afterOffer bs a s).scratchCap = s.scratchCap := rfl

@[simp] theorem afterOffer_stream (bs : List Byte) (a : Nat) (s : State) :
    (afterOffer bs a s).stream = s.stream ++ bs.take a := rfl

@[simp] theorem afterOffer_params (bs : List Byte) (a : Nat) (s : State) :
    (afterOffer bs a s).params = s.params := rfl

@[simp] theorem afterOffer_hostQueue (bs : List Byte) (a : Nat) (s : State) :
    (afterOffer bs a s).hostQueue = s.hostQueue := rfl

@[simp] theorem afterOffer_readData (bs : List Byte) (a : Nat) (s : State) :
    (afterOffer bs a s).readData = s.readData := rfl

@[simp] theorem afterOffer_sinkPlan (bs : List Byte) (a : Nat) (s : State) :
    (afterOffer bs a s).sinkPlan = s.sinkPlan.tail := rfl

@[simp] theorem afterOffer_draws (bs : List Byte) (a : Nat) (s : State) :
    (afterOffer bs a s).draws = if s.sinkPlan = [] then s.draws + 1 else s.draws := rfl

end Sys2Proof.Machine
end

