-- ==== Sys2Proof/Laws/Commands.lean ====
section
/-! SUPPORT. What each shared operation, each command and one step can do, said once: later proofs split these cases
and unfold nothing. -/

namespace Sys2Proof.Machine

/-- The SINK's answer takes at most the offered bytes and changes only the model's record of the SINK. -/
theorem sinkAnswer_some {len a : Nat} {s t : State} (h : sinkAnswer len s = some (a, t)) :
    a ≤ len ∧ s.sinkPlan.head? ≠ some .silent ∧
      t = { s with sinkPlan := s.sinkPlan.tail, draws := if s.sinkPlan = [] then s.draws + 1 else s.draws } ∧
      ∀ n, s.sinkPlan.head? = some (.accepts n) → a = min n len := by
  unfold sinkAnswer at h
  split at h
  · rename_i hp
    cases h
    simp [hp]
  · rename_i n rest hp
    cases h
    simp [hp]
  · cases h

theorem sinkAnswer_none {len : Nat} {s : State} : sinkAnswer len s = none ↔ s.sinkPlan.head? = some .silent := by
  unfold sinkAnswer
  split <;> simp [*]

/-- An offer ends in a next state with the accepted prefix in the stream. -/
theorem sinkOffer_next {bytes : List Byte} {s t : State} (h : sinkOffer bytes s = .next t) :
    ∃ a, mayAccept s bytes.length a ∧ s.sinkPlan.head? ≠ some .silent ∧ t = afterOffer bytes a s := by
  unfold sinkOffer at h
  split at h
  · cases h
  · rename_i a u hu
    obtain ⟨h1, h2, rfl, h4⟩ := sinkAnswer_some hu
    cases h
    exact ⟨a, ⟨h1, h4⟩, h2, rfl⟩

/-- An offer to a SINK that answers ends in a next state. -/
theorem sinkOffer_answers {s : State} (bytes : List Byte) (h : s.sinkPlan.head? ≠ some .silent) :
    ∃ a, mayAccept s bytes.length a ∧ sinkOffer bytes s = .next (afterOffer bytes a s) := by
  cases hb : sinkAnswer bytes.length s with
  | none => exact absurd (sinkAnswer_none.1 hb) h
  | some x =>
    obtain ⟨a, u⟩ := x
    obtain ⟨h1, -, rfl, h4⟩ := sinkAnswer_some hb
    exact ⟨a, ⟨h1, h4⟩, by simp only [sinkOffer, hb]; rfl⟩

/-- An offer to a silent SINK is stuck. -/
theorem sinkOffer_silent {s : State} (bytes : List Byte) (h : s.sinkPlan.head? = some .silent) :
    sinkOffer bytes s = .fault .sinkNeverAnswers := by
  simp only [sinkOffer, sinkAnswer_none.2 h]

/-- An offer reports `OK` or `SINK_WRITE_FAILURE` and no other code. -/
theorem afterOffer_err_cases (bytes : List Byte) (a : Nat) (s : State) :
    (afterOffer bytes a s).err = .ok ∨ (afterOffer bytes a s).err = .sinkWriteFailure := by
  rw [afterOffer_err]
  split
  · exact .inr rfl
  · exact .inl rfl

theorem growScratch_le (b : Bool) (n : Nat) (s : State) : s.scratchCap ≤ (growScratch b n s).scratchCap := by
  rw [growScratch_scratchCap]
  split <;> omega

/-- An offer stops only at a SINK that never answers. -/
theorem sinkOffer_fault {bytes : List Byte} {s : State} {f : Fault} (h : sinkOffer bytes s = .fault f) :
    f = .sinkNeverAnswers ∧ s.sinkPlan.head? = some .silent := by
  unfold sinkOffer at h
  split at h
  · rename_i hn
    cases h
    exact ⟨rfl, sinkAnswer_none.1 hn⟩
  · cases h

theorem sinkOffer_not_refused {bytes : List Byte} {s : State} {r : Refusal} : sinkOffer bytes s ≠ .refused r := by
  unfold sinkOffer
  split <;> simp

/-- The state between commands in which the frame commands pass their first checks. -/
structure Ready (s : State) : Prop where
  sess : s.sess = true
  term : s.term = false
  fits : frameTooLong s = false

/-- Every way a command can end, with what led there. -/
inductive Ends (s : State) : Instr → Result → Prop where
  | sessionOpen (be : Bool) (c : Codec) : s.sess = true → Ends s (.openSession be c) (.next (record .sessionOpen s))
  | opened (be : Bool) (c : Codec) : s.sess = false →
      Ends s (.openSession be c) (.next (record .ok { clearSession s with sess := true, be := be, codec := c.code }))
  | closed : Ends s .closeSession (.next (record .ok { clearSession s with sess := false }))
  | noSession (i : Instr) : frameCommand i = true → s.sess = false → Ends s i (.next (record .noSession s))
  | terminated (i : Instr) : frameCommand i = true → s.sess = true → s.term = true →
      Ends s i (.next (record .unsupportedCodec s))
  | noInspector (i : Instr) : i = .inspect ∨ i = .submit → s.sess = true → s.term = false →
      codecSupported s.codec = false → Ends s i (.next (record .unsupportedCodec { s with term := true }))
  | frameTooLong (i : Instr) : frameCommand i = true → s.sess = true → s.term = false → frameTooLong s = true →
      (i = .encapsulate ∨ codecSupported s.codec = true) → Ends s i (.next (record .badParameter s))
  | badDescriptor : Ready s → frameCount s < s.desc.offset.toNat ∨ badPeriod s.desc = true →
      Ends s .encapsulate (.next (record .badParameter s))
  | unwritten (i : Instr) (k : Nat) : frameCommand i = true → Ready s → memRead s.fb k = none → k < frameCount s →
      Ends s i (.fault (.unwrittenRead k))
  | unrecognized (i : Instr) (f : List Byte) : i = .inspect ∨ i = .submit → Ready s → codecSupported s.codec = true →
      frameBytes s = .ok f → inspectAs s.params f (Codec.ofCode s.codec) = none →
      Ends s i (.next (record .unrecognizedFrame s))
  | inspected (f : List Byte) (r : Inspected) : inspectFrame s = .ok (f, r) →
      Ends s .inspect (.next (record .ok (writeDesc r.desc s)))
  | otherProfile (f : List Byte) (r : Inspected) : inspectFrame s = .ok (f, r) → s.fill ≠ 0#8 →
      r.profile ≠ s.accProfile → Ends s .submit (.next (record .unrecognizedFrame s))
  | tooLarge (P : List Byte) : Ready s → s.desc.offset.toNat ≤ frameCount s → badPeriod s.desc = false →
      payloadBytes s = .ok P → s.desc.period.toNat < burstSize s.desc.pre P.length →
      Ends s .encapsulate (.next (record .payloadTooLarge s))
  | encapsulated (P : List Byte) : Ready s → s.desc.offset.toNat ≤ frameCount s → badPeriod s.desc = false →
      payloadBytes s = .ok P → burstSize s.desc.pre P.length ≤ s.desc.period.toNat →
      Ends s .encapsulate (sinkOffer (burst s.params s.be P s.desc)
        (growScratch (swapPayload s.params s.be s.desc.xswap) P.length s))
  | submitTooLarge (f : List Byte) (r : Inspected) : inspectFrame s = .ok (f, r) →
      (s.fill ≠ 0#8 → r.profile = s.accProfile) → aggK s.params r.profile = 1 →
      r.desc.period.toNat < burstSize r.desc.pre (f.drop r.desc.offset.toNat).length →
      Ends s .submit (.next (record .payloadTooLarge (writeDesc r.desc s)))
  | submitted (f : List Byte) (r : Inspected) : inspectFrame s = .ok (f, r) →
      (s.fill ≠ 0#8 → r.profile = s.accProfile) → aggK s.params r.profile = 1 →
      burstSize r.desc.pre (f.drop r.desc.offset.toNat).length ≤ r.desc.period.toNat →
      Ends s .submit (sinkOffer (burst s.params s.be (f.drop r.desc.offset.toNat) r.desc)
        (growScratch (swapPayload s.params s.be r.desc.xswap) (f.drop r.desc.offset.toNat).length
          (writeDesc r.desc s)))
  | subframeTooLarge (f : List Byte) (r : Inspected) : inspectFrame s = .ok (f, r) →
      (s.fill ≠ 0#8 → r.profile = s.accProfile) → aggK s.params r.profile ≠ 1 →
      r.desc.period.toNat < burstSize r.desc.pre (s.acc.length + (f.drop r.desc.offset.toNat).length) →
      Ends s .submit (.next (record .payloadTooLarge (writeDesc r.desc s)))
  | accumulated (f : List Byte) (r : Inspected) : inspectFrame s = .ok (f, r) →
      (s.fill ≠ 0#8 → r.profile = s.accProfile) → aggK s.params r.profile ≠ 1 →
      burstSize r.desc.pre (s.acc.length + (f.drop r.desc.offset.toNat).length) ≤ r.desc.period.toNat →
      (s.fill + 1#8).toNat < aggK s.params r.profile →
      Ends s .submit (.next (record .ok
        { appendSubframe (f.drop r.desc.offset.toNat) r.profile (writeDesc r.desc s) with agg := .accumulating }))
  | flushed (f : List Byte) (r : Inspected) : inspectFrame s = .ok (f, r) →
      (s.fill ≠ 0#8 → r.profile = s.accProfile) → aggK s.params r.profile ≠ 1 →
      burstSize r.desc.pre (s.acc.length + (f.drop r.desc.offset.toNat).length) ≤ r.desc.period.toNat →
      aggK s.params r.profile ≤ (s.fill + 1#8).toNat →
      Ends s .submit (sinkOffer
        (burst s.params s.be (s.acc ++ f.drop r.desc.offset.toNat)
          { r.desc with lencode := lengthCode (s.acc.length + (f.drop r.desc.offset.toNat).length) })
        (growScratch (swapPayload s.params s.be r.desc.xswap) (s.acc.length + (f.drop r.desc.offset.toNat).length)
          (emptyAccumulator (appendSubframe (f.drop r.desc.offset.toNat) r.profile (writeDesc r.desc s)))))

/-- What a frame that passed inspection had passed. -/
theorem inspectFrame_ok {s : State} {f : List Byte} {r : Inspected} (h : inspectFrame s = .ok (f, r)) :
    Ready s ∧ codecSupported s.codec = true ∧ frameBytes s = .ok f ∧
      inspectAs s.params f (Codec.ofCode s.codec) = some r := by
  unfold inspectFrame at h
  split at h
  · cases h
  split at h
  · cases h
  split at h
  · cases h
  split at h
  · cases h
  split at h
  · cases h
  split at h
  · cases h
  cases h
  simp_all
  constructor <;> simp_all

/-- A frame that passes the checks and inspection is handed on. -/
theorem inspectFrame_of {s : State} {f : List Byte} {r : Inspected} (hr : Ready s)
    (hc : codecSupported s.codec = true) (hf : frameBytes s = .ok f)
    (hi : inspectAs s.params f (Codec.ofCode s.codec) = some r) : inspectFrame s = .ok (f, r) := by
  simp [inspectFrame, hr.sess, hr.term, hr.fits, hc, hf, hi]

/-- How INSPECT and SUBMIT end where inspection hands nothing on. -/
theorem inspectFrame_error {s : State} {o : Result} {i : Instr} (hi : i = .inspect ∨ i = .submit)
    (h : inspectFrame s = .error o) : Ends s i o := by
  have hf : frameCommand i = true := by rcases hi with rfl | rfl <;> rfl
  unfold inspectFrame at h
  split at h
  · rename_i h1
    cases h
    exact .noSession i hf (by simpa using h1)
  split at h
  · rename_i h1 h2
    cases h
    exact .terminated i hf (by simpa using h1) h2
  split at h
  · rename_i h1 h2 h3
    cases h
    exact .noInspector i hi (by simpa using h1) (by simpa using h2) (by simpa using h3)
  split at h
  · rename_i h1 h2 h3 h4
    cases h
    exact .frameTooLong i hf (by simpa using h1) (by simpa using h2) h4 (.inr (by simpa using h3))
  rename_i h1 h2 h3 h4
  have hr : Ready s := ⟨by simpa using h1, by simpa using h2, by simpa using h4⟩
  split at h
  · rename_i f hf'
    cases h
    obtain ⟨k, rfl, -, hk, hn⟩ := readRange_error hf'
    exact .unwritten i k hf hr hn (by simpa using hk)
  split at h
  · rename_i hf' _ hn
    cases h
    exact .unrecognized i _ hi hr (by simpa using h3) hf' hn
  · cases h

/-- The cases of EmitBurst (41_encapsulator R128). -/
theorem emitBurst_cases (P : List Byte) (d : Descriptor) (s : State) :
    (d.period.toNat < burstSize d.pre P.length ∧ emitBurst P d s = .next (record .payloadTooLarge s)) ∨
    (burstSize d.pre P.length ≤ d.period.toNat ∧
      emitBurst P d s = sinkOffer (burst s.params s.be P d)
        (growScratch (swapPayload s.params s.be d.xswap) P.length s)) := by
  unfold emitBurst raise
  split
  · exact .inl ⟨by assumption, rfl⟩
  · exact .inr ⟨by omega, rfl⟩

theorem execEncapsulate_ends (s : State) : Ends s .encapsulate (execEncapsulate s) := by
  unfold execEncapsulate
  split
  · exact .noSession _ rfl (by simp_all)
  split
  · exact .terminated _ rfl (by simp_all) (by assumption)
  split
  · exact .frameTooLong _ rfl (by simp_all) (by simp_all) (by assumption) (.inl rfl)
  rename_i h1 h2 h3
  have hr : Ready s := ⟨by simpa using h1, by simpa using h2, by simpa using h3⟩
  split
  · exact .badDescriptor hr (.inl (by assumption))
  split
  · exact .badDescriptor hr (.inr (by assumption))
  rename_i h4 h5
  split
  · rename_i f hf
    obtain ⟨k, rfl, h6, h7, hn⟩ := readRange_error hf
    exact .unwritten _ k rfl hr hn (by omega)
  · rename_i P hP
    rcases emitBurst_cases P s.desc s with ⟨h, he⟩ | ⟨h, he⟩ <;> rw [he]
    · exact .tooLarge P hr (by omega) (by simpa using h5) hP h
    · exact .encapsulated P hr (by omega) (by simpa using h5) hP h

theorem execSubmit_ends (s : State) : Ends s .submit (execSubmit s) := by
  unfold execSubmit
  split
  · exact inspectFrame_error (.inr rfl) (by assumption)
  rename_i f r hir
  split
  · rename_i h
    exact .otherProfile f r hir h.1 h.2
  rename_i hm
  have hm : s.fill ≠ 0#8 → r.profile = s.accProfile := fun h => by simp_all
  simp only
  split
  · rename_i hk
    rcases emitBurst_cases (f.drop r.desc.offset.toNat) r.desc (writeDesc r.desc s) with ⟨h, he⟩ | ⟨h, he⟩ <;> rw [he]
    · exact .submitTooLarge f r hir hm hk h
    · exact .submitted f r hir hm hk h
  rename_i hk
  unfold aggregate
  split
  · exact .subframeTooLarge f r hir hm hk (by assumption)
  rename_i hs
  simp only
  split
  · exact .accumulated f r hir hm hk (by simp_all) (by assumption)
  rename_i hlt
  have hlen : (s.acc ++ f.drop r.desc.offset.toNat).length = s.acc.length + (f.drop r.desc.offset.toNat).length :=
    List.length_append
  simp only [appendSubframe_acc, appendSubframe_fill, writeDesc_acc, writeDesc_fill, hlen] at hs hlt ⊢
  rcases emitBurst_cases (s.acc ++ f.drop r.desc.offset.toNat)
    { r.desc with lencode := lengthCode (s.acc.length + (f.drop r.desc.offset.toNat).length) }
    (emptyAccumulator (appendSubframe (f.drop r.desc.offset.toNat) r.profile (writeDesc r.desc s)))
    with ⟨h, -⟩ | ⟨h, he⟩
  · rw [hlen] at h
    exact absurd h hs
  · rw [he, hlen]
    exact .flushed f r hir hm hk (by omega) (by omega)

/-- Every command ends in one of the ways of `Ends`. -/
theorem exec_ends (i : Instr) (s : State) : Ends s i (exec i s) := by
  cases i with
  | openSession be c =>
    show Ends s _ (execOpenSession be c s)
    unfold execOpenSession
    split
    · exact .sessionOpen be c (by assumption)
    · exact .opened be c (by simp_all)
  | closeSession => exact .closed
  | inspect =>
    show Ends s _ (execInspect s)
    unfold execInspect
    split
    · exact inspectFrame_error (.inl rfl) (by assumption)
    · exact .inspected _ _ (by assumption)
  | encapsulate => exact execEncapsulate_ends s
  | submit => exact execSubmit_ends s

/-- What every command keeps: the frame, the parameters and what is the HOST's. -/
structure Keeps (s u : State) : Prop where
  fb : u.fb = s.fb
  frameLen : u.frameLen = s.frameLen
  stream : u.stream = s.stream
  params : u.params = s.params
  hostQueue : u.hostQueue = s.hostQueue
  readData : u.readData = s.readData
  sinkPlan : u.sinkPlan = s.sinkPlan
  draws : u.draws = s.draws

/-- A command that ends in a next state made no offer and recorded a code, or made one offer of a whole burst. -/
theorem exec_next_shape {i : Instr} {s t : State} (h : exec i s = .next t) :
    (∃ e u, t = record e u ∧ e ≠ .sinkWriteFailure ∧ Keeps s u) ∨
    (∃ bs a u, t = afterOffer bs a u ∧ mayAccept s bs.length a ∧ bs.length < 2 ^ 32 ∧ Keeps s u ∧
      s.sinkPlan.head? ≠ some .silent) := by
  have he := exec_ends i s
  rw [h] at he
  generalize hr : (Host.Outcome.next t : Result) = r at he
  cases he with
  | encapsulated P h1 h2 h3 h4 h5 =>
    obtain ⟨a, ha, hs, rfl⟩ := sinkOffer_next hr.symm
    refine .inr ⟨_, a, _, rfl, ?_, ?_, ?_, ?_⟩
    · simpa [mayAccept] using ha
    · rw [burst_length _ _ _ _ h5]
      exact s.desc.period.isLt
    · constructor <;> simp
    · simpa using hs
  | submitted f r h1 h2 h3 h5 =>
    obtain ⟨a, ha, hs, rfl⟩ := sinkOffer_next hr.symm
    refine .inr ⟨_, a, _, rfl, ?_, ?_, ?_, ?_⟩
    · simpa [mayAccept] using ha
    · rw [burst_length _ _ _ _ h5]
      exact r.desc.period.isLt
    · constructor <;> simp
    · simpa using hs
  | flushed f r h1 h2 h3 h5 =>
    obtain ⟨a, ha, hs, rfl⟩ := sinkOffer_next hr.symm
    refine .inr ⟨_, a, _, rfl, ?_, ?_, ?_, ?_⟩
    · simpa [mayAccept] using ha
    · rw [burst_length _ _ _ _ (by simpa using h5)]
      exact r.desc.period.isLt
    · constructor <;> simp
    · simpa using hs
  | unwritten => cases hr
  | _ =>
    cases hr
    refine .inl ⟨_, _, rfl, by simp, ?_⟩
    constructor <;> simp

/-- What one step does. -/
theorem step_cases (s : State) :
    (s.hostQueue = [] ∧ step s = .next s) ∨
    ∃ e rest, s.hostQueue = e :: rest ∧
      ((commandOf s.params e = none ∧ step s = hostAccess e (popEvent s)) ∨
       ∃ w, commandOf s.params e = some w ∧
        ((∃ i, decode w = .ok i ∧ step s = exec i (popEvent s)) ∨
         ∃ why, decode w = .error why ∧ step s = .next (record .illegalCommand (popEvent s)))) := by
  cases hq : s.hostQueue with
  | nil => exact .inl ⟨rfl, by simp [step, fetch, hq]⟩
  | cons e rest =>
    refine .inr ⟨e, rest, rfl, ?_⟩
    cases hc : commandOf s.params e with
    | none => exact .inl ⟨rfl, by simp [step, fetch, hq, hc]⟩
    | some w =>
      refine .inr ⟨w, rfl, ?_⟩
      cases hd : decode w with
      | ok i => exact .inl ⟨i, rfl, by simp [step, fetch, hq, hc, hd]⟩
      | error why => exact .inr ⟨why, rfl, by simp [step, fetch, hq, hc, hd, illegalCommand, raise]⟩

end Sys2Proof.Machine
end

