-- ==== Sys2Proof/Laws/Operands.lean ====
section
/-! SUPPORT. The checks of the commands as propositions about the registers. -/

namespace Sys2Proof.Machine

theorem codecSupported_iff (k : BitVec 3) : codecSupported k = true ↔ k.toNat < 3 := by
  unfold codecSupported
  exact decide_eq_true_iff

theorem codecSupported_false_iff (k : BitVec 3) : codecSupported k = false ↔ 3 ≤ k.toNat := by
  unfold codecSupported
  rw [decide_eq_false_iff_not]
  omega

theorem frameTooLong_iff (s : State) :
    frameTooLong s = true ↔ s.params.frameBufBytes < s.frameLen.toNat := by
  unfold frameTooLong frameCount
  exact decide_eq_true_iff

theorem frameTooLong_false_iff (s : State) :
    frameTooLong s = false ↔ s.frameLen.toNat ≤ s.params.frameBufBytes := by
  unfold frameTooLong frameCount
  rw [decide_eq_false_iff_not]
  omega

theorem badPeriod_iff (d : Descriptor) :
    badPeriod d = true ↔ (d.period.toNat = 0 ∨ d.period.toNat % 2 = 1) := by
  unfold badPeriod
  exact decide_eq_true_iff

theorem badPeriod_false_iff (d : Descriptor) :
    badPeriod d = false ↔ (d.period.toNat ≠ 0 ∧ d.period.toNat % 2 = 0) := by
  unfold badPeriod
  rw [decide_eq_false_iff_not]
  omega

end Sys2Proof.Machine
end

