-- ==== Sys2Proof/Laws/PerInstr.lean ====
section
/-! SUPPORT. Statements made of each command as syntax: its word lies in its row of the opcode table (30_encoding R72),
that is, the bits under the row's mask are the row's match. -/

namespace Sys2Proof.Laws.EncodedFields

/-- The mask of the row of a command (30_encoding R72). -/
def rowMask : Instr → Word
  | .openSession _ _ => 0xFFFFF0FF#32
  | .closeSession => 0xFFFFFFFF#32
  | .inspect => 0xFFFFFFFF#32
  | .encapsulate => 0xFFFFFFFF#32
  | .submit => 0xFFFFFFFF#32

/-- The match of the row of a command (30_encoding R72). -/
def rowMatch : Instr → Word
  | .openSession _ _ => 0x00000001#32
  | .closeSession => 0x00000002#32
  | .inspect => 0x00000003#32
  | .encapsulate => 0x00000004#32
  | .submit => 0x00000005#32

def Statement (i : Instr) : Prop := encode i &&& rowMask i = rowMatch i

theorem openSession (be : Bool) (codec : Codec) : Statement (.openSession be codec) := by
  simp only [Statement, encode, rowMask, rowMatch]
  generalize codec.code = k
  revert be k
  decide

theorem closeSession : Statement .closeSession := rfl

theorem inspect : Statement .inspect := rfl

theorem encapsulate : Statement .encapsulate := rfl

theorem submit : Statement .submit := rfl

end Sys2Proof.Laws.EncodedFields
end

