-- ==== Sys2Proof/Tests/Slice0.lean ====
section
/-! SUPPORT. Tests of the model. The expected results are the spec's own (95_test_vectors, the worked examples of the
rules, 30_encoding); a test named `test_witness_…` shows a state and operands that meet the hypotheses of the obligation
it names, each clause at a boundary where it has one. -/

namespace Sys2Proof.Tests

open Sys2Proof.Machine

/-! ### Helpers -/

/-- Whether an outcome is a next state with a property. -/
def nextSat (o : Result) (p : State → Bool) : Bool :=
  match o with
  | .next t => p t
  | .fault _ => false
  | .refused _ => false

theorem of_nextSat {o : Result} {p : State → Bool} (h : nextSat o p = true) : ∃ t, o = .next t ∧ p t = true := by
  cases o with
  | next t => exact ⟨t, rfl, h⟩
  | fault f => cases h
  | refused r => cases h

/-- Whether an outcome is a given fault. -/
def isFault (o : Result) (f : Fault) : Bool :=
  match o with
  | .next _ => false
  | .fault g => decide (g = f)
  | .refused _ => false

/-- Whether an outcome is a given refusal. -/
def isRefused (o : Result) (r : Refusal) : Bool :=
  match o with
  | .next _ => false
  | .fault _ => false
  | .refused q => decide (q = r)

/-- A frame buffer with bytes from an index on. -/
def fbFrom : Nat → List Byte → Memory
  | _, [] => []
  | i, b :: bs => (i, b) :: fbFrom (i + 1) bs

/-- An open session with a frame in the buffer, and a SINK that takes the next two bursts whole. -/
def session (be : Bool) (codec : BitVec 3) (bs : List Byte) : State :=
  { State.reset with
    sess := true, be := be, codec := codec, fb := fbFrom 0 bs, frameLen := BitVec.ofNat 32 bs.length
    sinkPlan := [.accepts 20000, .accepts 20000] }

/-- The descriptor `DESC` writes (30_encoding R78). -/
def hostDesc (t l : Half) (o : Word) (x pre : Bool) (q : Word) : Descriptor := ⟨t, l, o, x, pre, 15#4, q⟩

/-- 95 section 2.3, I1. -/
def frameI1 : List Byte := [0x0B#8, 0x77#8, 0x11#8, 0x22#8, 0x33#8, 0x45#8, 0x66#8, 0x77#8, 0x88#8, 0x99#8]

/-- 95 section 2.3, I2. -/
def frameI2 : List Byte := [0x0B#8, 0x77#8, 0x00#8, 0x00#8, 0x00#8, 0x50#8]

/-- 95 section 2.3, I3. -/
def frameI3 : List Byte := [0x0B#8, 0x77#8, 0x00#8, 0x00#8, 0x00#8, 0x58#8]

/-- 95 section 2.3, I7. -/
def frameI7 : List Byte := [0x7F#8, 0xFE#8, 0x80#8, 0x01#8, 0xFC#8, 0x3C#8, 0x00#8, 0x00#8]

/-- 95 section 2.3, I8. -/
def frameI8 : List Byte := [0xFE#8, 0x7F#8, 0x01#8, 0x80#8, 0x3C#8, 0xFC#8, 0x00#8, 0x00#8]

/-- 95 section 2.3, I18 with byte 6 left open. -/
def frameAac (b1 b2 b6 : Byte) : List Byte :=
  [0xFF#8, b1, b2, 0x80#8, 0x02#8, 0x1F#8, b6, 0x00#8, 0x01#8, 0x02#8, 0x03#8, 0x04#8, 0x05#8, 0x06#8, 0x07#8, 0x08#8]

/-- The payload of 95 section 1. -/
def fiveBytes : List Byte := [0x01#8, 0x02#8, 0x03#8, 0x04#8, 0x05#8]

/-- L1-a's session: the five bytes, their descriptor and period. -/
def encSession (be xswap pre : Bool) (q : Word) (bs : List Byte) : State :=
  { session be 0#3 bs with desc := hostDesc 0x0001#16 0x0028#16 0#32 xswap pre q }

/-- The parameters of 95 section 2.6, with a period of 24 bytes, so that a burst stays short. -/
def aggParams : Params := { defaultParams with table := { defaultTable with ac3 := ⟨0x0001#16, 24#32, 2⟩ } }

/-- A session that aggregates two AC-3 frames, with `n` of them held. -/
def aggSession (bs : List Byte) : State := { session false 0#3 bs with params := aggParams }

/-- The same after the first SUBMIT. -/
def aggHalf (bs : List Byte) : State :=
  { aggSession bs with agg := .accumulating, fill := 1#8, acc := frameI2, accProfile := .ac3 }

/-- What `DESC_TYPE`, `DESC_LENCODE`, `DESC_FLAGS` and `DESC_PERIOD` read after an inspection. -/
def descWords (r : Option Inspected) : Option (Word × Word × Word × Word) :=
  r.map fun x => (x.desc.type.setWidth 32, x.desc.lencode.setWidth 32, descFlagsWord x.desc, x.desc.period)

/-! ### Well-formedness: each check refuses an ill-formed term -/

theorem test_wellFormed_refuses_ac3_code : (Instr.openSession false (.unsupported 0#3)).wellFormed = false := by decide

theorem test_wellFormed_refuses_dts_code : (Instr.openSession true (.unsupported 1#3)).wellFormed = false := by decide

theorem test_wellFormed_refuses_aac_code : (Instr.openSession true (.unsupported 2#3)).wellFormed = false := by decide

theorem test_wellFormed_accepts :
    (Instr.openSession false .ac3).wellFormed = true ∧ (Instr.openSession true .dts).wellFormed = true ∧
      (Instr.openSession true .adtsAac).wellFormed = true ∧
      (Instr.openSession true (.unsupported 3#3)).wellFormed = true ∧ Instr.closeSession.wellFormed = true ∧
      Instr.inspect.wellFormed = true ∧ Instr.encapsulate.wellFormed = true ∧ Instr.submit.wellFormed = true := by
  decide

/-! ### Decoding: words written out from the patterns of 30_encoding R72 -/

/-- `00000000000000000000cccb00000001` with `ccc = 001`, `b = 1` (R77: `OPEN be=1, codec=DTS`). -/
theorem test_decode_open : decode 0b00000000000000000000001100000001#32 = .ok (.openSession true .dts) := by rfl

/-- `ccc = 000`, `b = 0`. -/
theorem test_decode_open_ac3 : decode 0b00000000000000000000000000000001#32 = .ok (.openSession false .ac3) := by rfl

/-- `ccc = 010`, `b = 1`. -/
theorem test_decode_open_aac : decode 0b00000000000000000000010100000001#32 = .ok (.openSession true .adtsAac) := by
  rfl

/-- `ccc = 111`, `b = 0` (R76: no illegal encoding). -/
theorem test_decode_open_codec7 :
    decode 0b00000000000000000000111000000001#32 = .ok (.openSession false (.unsupported 7#3)) := by rfl

theorem test_decode_close : decode 0b00000000000000000000000000000010#32 = .ok .closeSession := by rfl

theorem test_decode_inspect : decode 0b00000000000000000000000000000011#32 = .ok .inspect := by rfl

theorem test_decode_encapsulate : decode 0b00000000000000000000000000000100#32 = .ok .encapsulate := by rfl

theorem test_decode_submit : decode 0b00000000000000000000000000000101#32 = .ok .submit := by rfl

/-- The illegal words of 95 section 2.5, each under its name. -/
theorem test_decode_illegal :
    decode 0x00001001#32 = .error (.mustBeZero 1#4) ∧ decode 0x00000011#32 = .error (.mustBeZero 1#4) ∧
      decode 0x00000102#32 = .error (.mustBeZero 2#4) ∧ decode 0x80000005#32 = .error (.mustBeZero 5#4) ∧
      decode 0x00000000#32 = .error (.reservedOpcode 0#4) ∧ decode 0x00000006#32 = .error (.reservedOpcode 6#4) ∧
      decode 0x0000000F#32 = .error (.reservedOpcode 15#4) ∧
      decode 0xFFFFFFFF#32 = .error (.reservedOpcode 15#4) := ⟨rfl, rfl, rfl, rfl, rfl, rfl, rfl, rfl⟩

/-- The words of 30_encoding R77, encoded. -/
theorem test_encode_words :
    encode (.openSession true .ac3) = 0x00000101#32 ∧ encode (.openSession false .dts) = 0x00000201#32 ∧
      encode (.openSession false .adtsAac) = 0x00000401#32 ∧
      encode (.openSession false (.unsupported 5#3)) = 0x00000A01#32 ∧ encode .closeSession = 0x00000002#32 ∧
      encode .submit = 0x00000005#32 := by decide

theorem test_table_words :
    decodeTableWord 32 1 = some (.openSession false .ac3) ∧ decodeTableWord 32 2 = some .closeSession ∧
      decodeTableWord 32 3 = some .inspect ∧ decodeTableWord 32 4 = some .encapsulate ∧
      decodeTableWord 32 5 = some .submit ∧ decodeTableWord 32 6 = none := ⟨rfl, rfl, rfl, rfl, rfl, rfl⟩

/-! ### One step of each command -/

/-- 95 section 2.5: the effects from the reset state. -/
theorem test_open_from_reset :
    nextSat (step (State.reset.withFetchWord 32 0x301)) (fun t => cfgWord t == 0x3#32 && statusWord t == 0x10#32) = true := by
  decide

/-- 95 section 2.5: `SESSION_OPEN`, `CFG` unchanged. -/
theorem test_open_in_session :
    nextSat (exec (.openSession false .ac3) (session true 1#3 [])) (fun t => statusWord t == 0x17#32 && cfgWord t == 0x3#32)
      = true := by decide

/-- R152: the waiting sub-frames are discarded, `CFG` stays. -/
theorem test_close :
    nextSat (exec .closeSession (aggHalf [])) (fun t => statusWord t == 0#32 && t.acc == [] && t.stream == []) = true := by
  decide

/-- 95 section 2.5: CLOSE is idempotent. -/
theorem test_close_from_reset : nextSat (step (State.reset.withFetchWord 32 2)) (fun t => statusWord t == 0#32) = true := by
  decide

/-- R90's example. -/
theorem test_inspect :
    nextSat (exec .inspect (session false 0#3 frameI1)) (fun t =>
      regRead t .descType == 0x501#32 && regRead t .descLencode == 0x50#32 && regRead t .descOffset == 0#32 &&
        regRead t .descFlags == 0x2#32 && regRead t .descPeriod == 6144#32 && t.err == .ok && t.stream == []) = true := by
  decide

/-- R76, 95 section 2.5: a codec with no inspector ends the session at dispatch. -/
theorem test_inspect_unsupported :
    nextSat (exec .inspect (session false 7#3 [])) (fun t => statusWord t == 0x33#32) = true := by decide

/-- 95 E1, L1-a. -/
theorem test_encapsulate :
    nextSat (exec .encapsulate (encSession false false true 16#32 fiveBytes)) (fun t =>
      t.stream == [0x72#8, 0xF8#8, 0x1F#8, 0x4E#8, 0x01#8, 0x00#8, 0x28#8, 0x00#8, 0x01#8, 0x02#8, 0x03#8, 0x04#8, 0x00#8,
        0x05#8, 0x00#8, 0x00#8] && t.burstLen == 16#32 && t.sinkAccepted == 16#32 && t.err == .ok) = true := by decide

/-- 95 E3, L1-b, with a SINK that takes 3 bytes (R55). -/
theorem test_encapsulate_short_sink :
    nextSat (exec .encapsulate { encSession true false true 16#32 fiveBytes with sinkPlan := [.accepts 3] }) (fun t =>
      t.stream == [0xF8#8, 0x72#8, 0x4E#8] && t.err == .sinkWriteFailure && t.burstLen == 16#32 &&
        t.sinkAccepted == 3#32) = true := by decide

/-- 95 section 2.4, S3: one DTS frame, one burst of 2048 bytes. -/
theorem test_submit :
    nextSat (exec .submit (session false 1#3 frameI7)) (fun t =>
      t.stream.take 18 == [0x72#8, 0xF8#8, 0x1F#8, 0x4E#8, 0x0B#8, 0x00#8, 0x40#8, 0x00#8] ++ frameI7 ++
        [0x00#8, 0x00#8] && t.stream.length == 2048 && t.burstLen == 2048#32 && t.err == .ok) = true := by decide +kernel

/-- 95 section 2.6: the first sub-frame is kept and nothing is emitted; the second one flushes, with the joined length code
`0x0060` (here the period is 24 bytes). -/
theorem test_submit_aggregates :
    nextSat (exec .submit (aggSession frameI2)) (fun t =>
      statusWord t == 0x150#32 && t.acc == frameI2 && t.stream == [] && t.burstLen == 0#32) = true ∧
      nextSat (exec .submit (aggHalf frameI2)) (fun t =>
        t.stream == [0x72#8, 0xF8#8, 0x1F#8, 0x4E#8, 0x01#8, 0x00#8, 0x60#8, 0x00#8] ++ frameI2 ++ frameI2 ++
          [0x00#8, 0x00#8, 0x00#8, 0x00#8] && statusWord t == 0x10#32 && t.acc == []) = true := by decide

/-! ### Bursts (95 section 2.2) and inspectors (95 section 2.3) -/

theorem test_burst_E2_E4_E5 :
    burst defaultParams false fiveBytes (hostDesc 1#16 0x28#16 0#32 true true 16#32) =
        [0x72#8, 0xF8#8, 0x1F#8, 0x4E#8, 0x01#8, 0x00#8, 0x28#8, 0x00#8, 0x02#8, 0x01#8, 0x04#8, 0x03#8, 0x00#8, 0x05#8,
          0x00#8, 0x00#8] ∧
      burst defaultParams true fiveBytes (hostDesc 1#16 0x28#16 0#32 true true 16#32) =
        [0xF8#8, 0x72#8, 0x4E#8, 0x1F#8, 0x00#8, 0x01#8, 0x00#8, 0x28#8, 0x01#8, 0x02#8, 0x03#8, 0x04#8, 0x05#8, 0x00#8,
          0x00#8, 0x00#8] ∧
      burst { defaultParams with swapSense := .inverted } false fiveBytes (hostDesc 1#16 0x28#16 0#32 false true 16#32) =
        [0x72#8, 0xF8#8, 0x1F#8, 0x4E#8, 0x01#8, 0x00#8, 0x28#8, 0x00#8, 0x02#8, 0x01#8, 0x04#8, 0x03#8, 0x00#8, 0x05#8,
          0x00#8, 0x00#8] := by decide

theorem test_burst_E11_E13_E15 :
    burst defaultParams true [] (hostDesc 1#16 0#16 0#32 false true 8#32) =
        [0xF8#8, 0x72#8, 0x4E#8, 0x1F#8, 0x00#8, 0x01#8, 0x00#8, 0x00#8] ∧
      burst defaultParams true [0x01#8, 0x02#8, 0x03#8] (hostDesc 0#16 0#16 0#32 false false 4#32) =
        [0x02#8, 0x01#8, 0x03#8, 0x00#8] ∧
      burst defaultParams true [0xAB#8] (hostDesc 0x1234#16 8#16 0#32 false true 10#32) =
        [0xF8#8, 0x72#8, 0x4E#8, 0x1F#8, 0x12#8, 0x34#8, 0x00#8, 0x08#8, 0xAB#8, 0x00#8] := by decide

theorem test_inspectors_ac3 :
    descWords (inspectAc3 defaultParams frameI2) = some (0x1#32, 0x30#32, 0x2#32, 6144#32) ∧
      inspectAc3 defaultParams frameI3 = none ∧
      inspectAc3 defaultParams [0x77#8, 0x0B#8, 0x22#8, 0x11#8, 0x45#8, 0x33#8] = none ∧
      inspectAc3 defaultParams [] = none := by decide

/-- I8, I9, I10, I11, I12, I14. -/
theorem test_inspectors_dts :
    descWords (inspectDts defaultParams frameI8) = some (0xB#32, 0x40#32, 0x103#32, 2048#32) ∧
      descWords (inspectDts defaultParams [0x7F#8, 0xFE#8, 0x80#8, 0x01#8, 0x00#8, 0x7C#8]) =
        some (0xC#32, 0x30#32, 0x202#32, 4096#32) ∧
      descWords (inspectDts defaultParams [0x1F#8, 0xFF#8, 0xE8#8, 0x00#8, 0x00#8, 0x01#8, 0x3C#8, 0x00#8]) =
        some (0xC#32, 0x40#32, 0x202#32, 4096#32) ∧
      descWords (inspectDts defaultParams [0xFF#8, 0x1F#8, 0x00#8, 0xE8#8, 0x03#8, 0x00#8, 0x00#8, 0x3C#8]) =
        some (0xD#32, 0x40#32, 0x303#32, 8192#32) ∧
      inspectDts defaultParams [0xFF#8, 0x1F#8, 0x00#8, 0xE8#8, 0x03#8, 0x00#8, 0x00#8] = none ∧
      inspectDts defaultParams [0x7F#8, 0xFE#8, 0x80#8, 0x01#8, 0x00#8, 0x00#8] = none := by decide

/-- R103, I16 and I17 with a period of 8 bytes: a frame that fills its period has no preamble, under the parameter. -/
theorem test_inspectors_dts_raw_fit :
    descWords (inspectDts { defaultParams with table := { defaultTable with dtsI := ⟨0xB#16, 8#32, 1⟩ } } frameI7) =
        some (0xB#32, 0x40#32, 0x100#32, 8#32) ∧
      descWords (inspectDts
        { defaultParams with table := { defaultTable with dtsI := ⟨0xB#16, 8#32, 1⟩ }, dtsRawFit := false } frameI7) =
        some (0xB#32, 0x40#32, 0x102#32, 8#32) := by decide

/-- I18 to I23, I25, I26, I24. -/
theorem test_inspectors_aac :
    descWords (inspectAac defaultParams (frameAac 0xF1#8 0x4C#8 0xFC#8)) = some (0x7#32, 0x80#32, 0x402#32, 4096#32) ∧
      descWords (inspectAac defaultParams (frameAac 0xF1#8 0x4C#8 0xFD#8)) = some (0x20#32, 0x80#32, 0x502#32, 8192#32) ∧
      descWords (inspectAac defaultParams (frameAac 0xF1#8 0x4C#8 0xFF#8)) =
        some (0x33#32, 0x80#32, 0x602#32, 16384#32) ∧
      inspectAac defaultParams (frameAac 0xF1#8 0x4C#8 0xFE#8) = none ∧
      inspectAac defaultParams (frameAac 0xF1#8 0x74#8 0xFC#8) = none ∧
      descWords (inspectAac defaultParams (frameAac 0xF1#8 0x70#8 0xFC#8)) = some (0x7#32, 0x80#32, 0x402#32, 4096#32) ∧
      inspectAac defaultParams (frameAac 0xE1#8 0x4C#8 0xFC#8) = none ∧
      descWords (inspectAac defaultParams (frameAac 0xF9#8 0x4C#8 0xFC#8)) = some (0x7#32, 0x80#32, 0x402#32, 4096#32) ∧
      inspectAac defaultParams [0xFF#8, 0xF1#8, 0x4C#8, 0x80#8, 0x00#8, 0xDF#8, 0xFC#8] = none := by decide

/-- 95, the length codes at 6136, 8191, 8192 and 16376 bytes. -/
theorem test_length_code :
    lengthCode 6136 = 0xBFC0#16 ∧ lengthCode 8191 = 0xFFF8#16 ∧ lengthCode 8192 = 0x0000#16 ∧
      lengthCode 16376 = 0xFFC0#16 := by decide

/-- R78: the value of `DESC_FLAGS` that `DESC` writes, and the bits a register keeps (R26). -/
theorem test_register_writes :
    (descOps defaultParams 0#32 0#32 0#32 true true 0#32)[3]? = some (.write 0x01C 32 0xF03#32) ∧
      regRead (regWrite 0xFFFFFFFF#32 State.reset .descFlags) .descFlags = 0xF03#32 ∧
      regRead (regWrite 0xFFFFFFFF#32 State.reset .descType) .descType = 0xFFFF#32 := by decide

/-! ### Witnesses: states and operands that meet the hypotheses of the obligations -/

/-- DecodeOfEncode. -/
theorem test_witness_well_formed :
    (Instr.openSession true (.unsupported 3#3)).wellFormed = true ∧
      (Instr.openSession false (.unsupported 7#3)).wellFormed = true ∧ Instr.submit.wellFormed = true := by decide

/-- EncodeOfDecode. -/
theorem test_witness_decodes : decode 0x00000F01#32 = .ok (.openSession true (.unsupported 7#3)) := by rfl

/-- DecodeFollowsTheTable: the first clause at both ends of its operands, the last at words that differ in one bit. -/
theorem test_witness_table_words :
    0x00000001#32 &&& 0xFFFFF0FF#32 = 0x00000001#32 ∧ 0x00000F01#32 &&& 0xFFFFF0FF#32 = 0x00000001#32 ∧
      0x00001001#32 &&& 0xFFFFF0FF#32 ≠ 0x00000001#32 ∧ 0x00000011#32 &&& 0xFFFFF0FF#32 ≠ 0x00000001#32 ∧
      0x00000006#32 &&& 0xFFFFF0FF#32 ≠ 0x00000001#32 := by decide

/-- IllegalWordsAreRecorded: each way to be illegal, and a word that is none. -/
theorem test_witness_illegal_words :
    (0x00000010#32).extractLsb' 0 4 = 0#4 ∧ 6 ≤ ((0x00000006#32).extractLsb' 0 4).toNat ∧
      6 ≤ ((0xFFFFFFFF#32).extractLsb' 0 4).toNat ∧
      ((0x00000011#32).extractLsb' 0 4 = 1#4 ∧ (0x00000011#32).extractLsb' 4 4 ≠ 0#4) ∧
      ((0x00001001#32).extractLsb' 0 4 = 1#4 ∧ (0x00001001#32).extractLsb' 12 20 ≠ 0#20) ∧
      (2 ≤ ((0x00000102#32).extractLsb' 0 4).toNat ∧ ((0x00000102#32).extractLsb' 0 4).toNat ≤ 5 ∧
        (0x00000102#32).extractLsb' 4 28 ≠ 0#28) ∧
      (2 ≤ ((0x80000005#32).extractLsb' 0 4).toNat ∧ ((0x80000005#32).extractLsb' 0 4).toNat ≤ 5 ∧
        (0x80000005#32).extractLsb' 4 28 ≠ 0#28) ∧
      ¬((0x00000F01#32).extractLsb' 0 4 = 0#4 ∨ 6 ≤ ((0x00000F01#32).extractLsb' 0 4).toNat ∨
        ((0x00000F01#32).extractLsb' 0 4 = 1#4 ∧
          ((0x00000F01#32).extractLsb' 4 4 ≠ 0#4 ∨ (0x00000F01#32).extractLsb' 12 20 ≠ 0#20)) ∨
        (2 ≤ ((0x00000F01#32).extractLsb' 0 4).toNat ∧ ((0x00000F01#32).extractLsb' 0 4).toNat ≤ 5 ∧
          (0x00000F01#32).extractLsb' 4 28 ≠ 0#28)) := by decide

/-- CommandWriteRunsTheCommand, ResultCodesAndTheirCommands, ErrorPriority: words that decode and words that do not. -/
theorem test_witness_command_words :
    decode 0x00000005#32 = .ok .submit ∧ decode 0x00000000#32 = .error (.reservedOpcode 0#4) := ⟨rfl, rfl⟩

/-- ResultCodesAndTheirCommands, ErrorPriority, ErrorsArePrecise, ErrorsAreLocal and the frames: a command that ends in each
code a command can raise. -/
theorem test_witness_codes :
    (∃ t, exec .submit (session false 0#3 frameI3) = .next t ∧ decide (t.err = .unrecognizedFrame) = true) ∧
      (∃ t, exec .encapsulate (encSession false false true 12#32 fiveBytes) = .next t ∧
        decide (t.err = .payloadTooLarge) = true) ∧
      (∃ t, exec .inspect (session false 3#3 []) = .next t ∧ decide (t.err = .unsupportedCodec) = true) ∧
      (∃ t, exec .encapsulate { session false 0#3 [] with term := true } = .next t ∧
        decide (t.err = .unsupportedCodec) = true) ∧
      (∃ t, exec .encapsulate { encSession false false true 16#32 fiveBytes with sinkPlan := [.accepts 15] } = .next t ∧
        decide (t.err = .sinkWriteFailure) = true) ∧
      (∃ t, exec .inspect State.reset = .next t ∧ decide (t.err = .noSession) = true) ∧
      (∃ t, exec (.openSession false .ac3) (session false 0#3 []) = .next t ∧ decide (t.err = .sessionOpen) = true) ∧
      (∃ t, exec .encapsulate (encSession false false true 15#32 fiveBytes) = .next t ∧
        decide (t.err = .badParameter) = true) ∧
      (∃ t, exec .closeSession State.reset = .next t ∧ decide (t.err = .ok) = true) ∧
      (∃ t, exec .inspect (session false 0#3 frameI2) = .next t ∧ decide (t.err = .ok) = true) :=
  ⟨of_nextSat (by decide), of_nextSat (by decide), of_nextSat (by decide), of_nextSat (by decide), of_nextSat (by decide),
    of_nextSat (by decide), of_nextSat (by decide), of_nextSat (by decide), of_nextSat (by decide),
    of_nextSat (by decide)⟩

/-- ErrorsArePrecise: a SUBMIT that fails to encapsulate changes `DESC_*`, a dispatch changes `TERM`. -/
theorem test_witness_named_changes :
    (∃ t, exec .submit (aggSession (frameI2 ++ frameI2 ++ fiveBytes)) = .next t ∧
      decide (t.err = .payloadTooLarge ∧ t.desc ≠ (aggSession (frameI2 ++ frameI2 ++ fiveBytes)).desc) = true) ∧
      ∃ t, exec .submit (session false 7#3 []) = .next t ∧
        decide (t.err = .unsupportedCodec ∧ t.term = true) = true :=
  ⟨of_nextSat (by decide), of_nextSat (by decide)⟩

/-- ErrorsAreLocal: an illegal word, a SUBMIT that is too large, and an ENCAPSULATE and a flushing SUBMIT with a short SINK. -/
theorem test_witness_local_errors :
    (∃ t, step { session true 1#3 [] with hostQueue := [cmdWord defaultParams 0x0000000F#32] } = .next t ∧
      decide (t.err = .illegalCommand) = true) ∧
      (∃ t, exec .submit (aggSession (frameI2 ++ frameI2 ++ fiveBytes)) = .next t ∧
        decide (t.err = .payloadTooLarge) = true) ∧
      (∃ t, exec .encapsulate { encSession false false true 16#32 fiveBytes with sinkPlan := [.accepts 0] } = .next t ∧
        decide (t.err = .sinkWriteFailure) = true) ∧
      ∃ t, exec .submit { aggHalf frameI2 with sinkPlan := [.accepts 23] } = .next t ∧
        decide (t.err = .sinkWriteFailure) = true :=
  ⟨of_nextSat (by decide), of_nextSat (by decide), of_nextSat (by decide), of_nextSat (by decide)⟩

/-- ConfigRegister, SessionBitsWriters: steps that change `CFG`, `SESS` and `TERM`, each by what may change them. -/
theorem test_witness_session_changes :
    (∃ t, step { State.reset with hostQueue := [cmdWord defaultParams 0x00000301#32] } = .next t ∧
      decide (t.be = true ∧ t.codec = 1#3 ∧ t.sess = true) = true) ∧
      (∃ t, step { session true 1#3 [] with hostQueue := [.reset] } = .next t ∧
        decide (t.be = false ∧ t.codec = 0#3 ∧ t.sess = false) = true) ∧
      (∃ t, step { session true 1#3 [] with hostQueue := [cmdWord defaultParams 0x00000002#32], term := true } = .next t ∧
        decide (t.sess = false ∧ t.term = false) = true) ∧
      ∃ t, step { session true 3#3 [] with hostQueue := [cmdWord defaultParams 0x00000005#32] } = .next t ∧
        decide (t.term = true ∧ t.err = .unsupportedCodec) = true :=
  ⟨of_nextSat (by decide), of_nextSat (by decide), of_nextSat (by decide), of_nextSat (by decide)⟩

/-- UnsupportedCodecIsTerminal: the three clauses; the step of the last is an OPEN that is refused. -/
theorem test_witness_terminated :
    (session false 3#3 []).sess = true ∧ (session false 3#3 []).term = false ∧ 3 ≤ (session false 3#3 []).codec.toNat ∧
      3 ≤ (session false 7#3 []).codec.toNat ∧
      (∃ t, step { session false 7#3 [] with term := true, hostQueue := [cmdWord defaultParams 0x00000001#32] } = .next t ∧
        decide (t.term = true) = true) ∧
      fetch { session false 7#3 [] with term := true, hostQueue := [cmdWord defaultParams 0x00000001#32] } ≠
        .command .closeSession ∧
      fetch { session false 7#3 [] with term := true, hostQueue := [cmdWord defaultParams 0x00000001#32] } ≠
        .access .reset :=
  ⟨rfl, rfl, by decide, by decide, of_nextSat (by decide), by decide, by decide⟩

/-- RegisterMap, HostReadsHaveNoSideEffect, HostWritesReachTheirPlace: the first and the last cell, written and not. -/
theorem test_witness_cells :
    0 < State.reset.params.frameBufBytes ∧ 16383 < State.reset.params.frameBufBytes ∧
      memRead State.reset.fb 0 = none ∧ memRead (session false 0#3 frameI2).fb 0 = some 0x0B#8 ∧
      memRead [(16383, 0xAB#8)] 16383 = some 0xAB#8 ∧ RegName.descPeriod ≠ .cmd ∧
      RegName.descPeriod ≠ .frameLen := by decide

/-- RefusedAccesses, RefusedExactlyOutsideTheRules: each clause at the ends of its range, and that an access runs into it. -/
theorem test_witness_refused :
    isRefused (step { State.reset with hostQueue := [.read 0x000 8] }) (.accessWidth 0x000 8) = true ∧
      isRefused (step { State.reset with hostQueue := [.write 0x02B 16 0#32] }) (.accessWidth 0x02B 16) = true ∧
      isRefused (step { State.reset with hostQueue := [.write 0x001 32 0#32] }) (.misaligned 0x001) = true ∧
      isRefused (step { State.reset with hostQueue := [.read 0x02B 32] }) (.misaligned 0x02B) = true ∧
      isRefused (step { State.reset with hostQueue := [.read 0x1000 32] }) (.accessWidth 0x1000 32) = true ∧
      isRefused (step { State.reset with hostQueue := [.read 0x4FFF 32] }) (.accessWidth 0x4FFF 32) = true ∧
      isRefused (step { State.reset with hostQueue := [.read 0x02C 32] }) (.unmapped 0x02C) = true ∧
      isRefused (step { State.reset with hostQueue := [.read 0xFFF 8] }) (.unmapped 0xFFF) = true ∧
      isRefused (step { State.reset with hostQueue := [.read 0x5000 8] }) (.unmapped 0x5000) = true ∧
      nextSat (step { State.reset with hostQueue := [.read 0x028 32] }) (fun t => t.readData == 0#32) = true ∧
      nextSat (step { State.reset with hostQueue := [.write 0x4FFF 8 0xAB#32] }) (fun t => t.fb == [(0x3FFF, 0xAB#8)])
        = true ∧
      isRefused (step
        { State.reset with params := { defaultParams with ibeBase := 0x100 }, hostQueue := [.write 0x0FF 8 0#32] })
        (.unmapped 0x0FF) = true := by decide

/-- FrameOpsLoadTheFrame: a frame and the empty frame. -/
theorem test_witness_frame_ops :
    frameI1.length ≤ State.reset.params.frameBufBytes ∧ frameI1.length < 2 ^ 32 ∧
      ([] : List Byte).length ≤ State.reset.params.frameBufBytes := by decide

/-- OpenStartsASession, NoSessionForFrameCommands, and the first clauses of the frame commands' statements. -/
theorem test_witness_no_session : State.reset.sess = false ∧ (session true 1#3 []).sess = true := ⟨rfl, rfl⟩

/-- BadParameterCauses and the parameter clauses of InspectLoadsTheDescriptor, EncapsulateOffersOneBurst and
SubmitOffersOneBurst: each cause just past its limit, in an open session not terminated. -/
theorem test_witness_bad_parameter :
    (∃ s : State, s.sess = true ∧ s.term = false ∧ s.codec.toNat < 3 ∧ s.params.frameBufBytes < s.frameLen.toNat) ∧
      (∃ s : State, s.sess = true ∧ s.term = false ∧ s.frameLen.toNat ≤ s.params.frameBufBytes ∧
        s.frameLen.toNat < s.desc.offset.toNat) ∧
      (∃ s : State, s.sess = true ∧ s.term = false ∧ s.frameLen.toNat ≤ s.params.frameBufBytes ∧
        s.desc.offset.toNat ≤ s.frameLen.toNat ∧ s.desc.period = 0#32) ∧
      ∃ s : State, s.sess = true ∧ s.term = false ∧ s.frameLen.toNat ≤ s.params.frameBufBytes ∧
        s.desc.offset.toNat ≤ s.frameLen.toNat ∧ s.desc.period.toNat % 2 = 1 :=
  ⟨⟨{ session false 2#3 [] with frameLen := 16385#32 }, by decide⟩,
    ⟨{ session false 2#3 fiveBytes with desc := hostDesc 1#16 40#16 6#32 false true 16#32 }, by decide⟩,
    ⟨encSession false false true 0#32 fiveBytes, by decide⟩, ⟨encSession false false true 15#32 fiveBytes, by decide⟩⟩

/-- UnrecognizedFrameCauses, InspectLoadsTheDescriptor, SubmitOffersOneBurst: a frame the inspector rejects. -/
theorem test_witness_rejected_frame :
    ∃ (s : State) (f : List Byte), s.sess = true ∧ s.term = false ∧ s.codec.toNat < 3 ∧
      s.frameLen.toNat ≤ s.params.frameBufBytes ∧ frameBytes s = .ok f ∧
      inspectAs s.params f (Codec.ofCode s.codec) = none :=
  ⟨session false 0#3 frameI3, frameI3, rfl, rfl, by decide, by decide, rfl, rfl⟩

/-- InspectLoadsTheDescriptor: the empty frame. -/
theorem test_witness_empty_frame :
    ∃ s : State, s.sess = true ∧ s.term = false ∧ s.codec.toNat < 3 ∧ s.frameLen = 0#32 :=
  ⟨session false 0#3 [], rfl, rfl, by decide, rfl⟩

/-- UnrecognizedFrameCauses, SubmitOffersOneBurst: an accepted frame of another profile than the one being joined. -/
theorem test_witness_other_profile :
    ∃ (s : State) (f : List Byte) (r : Inspected), s.sess = true ∧ s.term = false ∧ s.codec.toNat < 3 ∧
      s.frameLen.toNat ≤ s.params.frameBufBytes ∧ frameBytes s = .ok f ∧
      inspectAs s.params f (Codec.ofCode s.codec) = some r ∧ s.fill ≠ 0#8 ∧ r.profile ≠ s.accProfile :=
  ⟨{ aggHalf frameI2 with accProfile := .dtsI }, frameI2, _, rfl, rfl, by decide, by decide, rfl, rfl, by decide,
    by decide⟩

/-- InspectLoadsTheDescriptor and SubmitOffersOneBurst: an accepted frame of a profile with one frame a burst, that fits. -/
theorem test_witness_one_frame_a_burst :
    ∃ (s : State) (f : List Byte) (r : Inspected), s.sess = true ∧ s.term = false ∧ s.codec.toNat < 3 ∧
      s.frameLen.toNat ≤ s.params.frameBufBytes ∧ frameBytes s = .ok f ∧
      inspectAs s.params f (Codec.ofCode s.codec) = some r ∧ s.fill = 0#8 ∧ aggK s.params r.profile = 1 ∧
      headLen r.desc.pre + ceil2 f.length ≤ r.desc.period.toNat ∧ s.sinkPlan.head? ≠ some .silent :=
  ⟨session false 0#3 frameI2, frameI2, _, rfl, rfl, by decide, by decide, rfl, rfl, rfl, rfl, by decide, by decide⟩

/-- SubmitOffersOneBurst: one that is two bytes too long for its period. -/
theorem test_witness_one_frame_too_large :
    ∃ (s : State) (f : List Byte) (r : Inspected), s.sess = true ∧ s.term = false ∧ s.codec.toNat < 3 ∧
      s.frameLen.toNat ≤ s.params.frameBufBytes ∧ frameBytes s = .ok f ∧
      inspectAs s.params f (Codec.ofCode s.codec) = some r ∧ s.fill = 0#8 ∧ aggK s.params r.profile = 1 ∧
      r.desc.period.toNat < headLen r.desc.pre + ceil2 f.length :=
  ⟨{ session false 0#3 frameI2 with params := { defaultParams with table := { defaultTable with ac3 := ⟨1#16, 12#32, 1⟩ } } },
    frameI2, _, rfl, rfl, by decide, by decide, rfl, rfl, rfl, rfl, by decide⟩

/-- SubmitOffersOneBurst: an accepted frame of a profile with several frames a burst, of the profile being joined. -/
theorem test_witness_several_frames_a_burst :
    ∃ (s : State) (f : List Byte) (r : Inspected), s.sess = true ∧ s.term = false ∧ s.codec.toNat < 3 ∧
      s.frameLen.toNat ≤ s.params.frameBufBytes ∧ frameBytes s = .ok f ∧
      inspectAs s.params f (Codec.ofCode s.codec) = some r ∧ s.fill ≠ 0#8 ∧ r.profile = s.accProfile ∧
      aggK s.params r.profile ≠ 1 :=
  ⟨aggHalf frameI2, frameI2, _, rfl, rfl, by decide, by decide, rfl, rfl, by decide, rfl, by decide⟩

/-- StopsOnlyWhereNamed: the first and the last byte of a frame, and the last of a payload, unwritten. -/
theorem test_witness_unwritten :
    (∃ s : State, s.sess = true ∧ s.term = false ∧ s.codec.toNat < 3 ∧ s.frameLen.toNat ≤ s.params.frameBufBytes ∧
      0 < s.frameLen.toNat ∧ memRead s.fb 0 = none) ∧
      (∃ s : State, s.sess = true ∧ s.term = false ∧ s.codec.toNat < 3 ∧ s.frameLen.toNat ≤ s.params.frameBufBytes ∧
        6 < s.frameLen.toNat ∧ memRead s.fb 6 = none) ∧
      ∃ s : State, s.sess = true ∧ s.term = false ∧ s.frameLen.toNat ≤ s.params.frameBufBytes ∧ s.desc.offset.toNat ≤ 5 ∧
        5 < s.frameLen.toNat ∧ s.desc.period.toNat ≠ 0 ∧ s.desc.period.toNat % 2 = 0 ∧ memRead s.fb 5 = none :=
  ⟨⟨{ session false 0#3 [] with frameLen := 6#32 }, by decide⟩, ⟨{ session false 0#3 frameI2 with frameLen := 7#32 }, by decide⟩,
    ⟨{ encSession false false true 16#32 fiveBytes with frameLen := 6#32 }, by decide⟩⟩

/-- StopsOnlyWhereNamed: commands that end in each fault. -/
theorem test_witness_stops :
    isFault (exec .inspect { session false 0#3 [] with frameLen := 6#32 }) (.unwrittenRead 0) = true ∧
      isFault (exec .submit { session false 0#3 frameI2 with frameLen := 7#32 }) (.unwrittenRead 6) = true ∧
      isFault (exec .encapsulate { encSession false false true 16#32 fiveBytes with frameLen := 6#32 }) (.unwrittenRead 5)
        = true ∧
      isFault (exec .encapsulate { encSession false false true 16#32 fiveBytes with sinkPlan := [.silent] })
        .sinkNeverAnswers = true := by decide

/-- InspectAc3Accepts, InspectDtsAccepts, InspectAacAccepts, InspectorLengthCode: an accepted frame of each codec, and a DTS
frame one byte too long for its period with a preamble. -/
theorem test_witness_accepted :
    (inspectAs defaultParams frameI2 .ac3).isSome = true ∧ (inspectAs defaultParams frameI8 .dts).isSome = true ∧
      (inspectAs defaultParams (frameAac 0xF1#8 0x4C#8 0xFC#8) .adtsAac).isSome = true ∧
      (hostDesc 0xB#16 0#16 0#32 true true 15#32).pre = true ∧
      (hostDesc 0xB#16 0#16 0#32 true true 15#32).period.toNat < frameI8.length + 8 := by decide

/-- InspectorsReadEightBytes: two frames that differ in their ninth byte. -/
theorem test_witness_eight_bytes :
    (frameI8 ++ [0x00#8]).length = (frameI8 ++ [0xFF#8]).length ∧
      (frameI8 ++ [0x00#8]).take 8 = (frameI8 ++ [0xFF#8]).take 8 := by decide

/-- PreambleLeadsTheBurst, PreambleRoundTrip, TrailingUnit: both settings of PRE, an odd and an even payload. -/
theorem test_witness_burst_bits :
    (hostDesc 1#16 0#16 0#32 true true 16#32).pre = true ∧ (hostDesc 1#16 0#16 0#32 false false 16#32).pre = false ∧
      fiveBytes.length % 2 = 1 ∧ fiveBytes.getLast? = some 0x05#8 ∧ frameI2.length % 2 = 0 ∧
      ([] : List Byte).length % 2 = 0 := by decide

/-- PayloadPairs: the last pair of an odd payload, with each way to be swapped and not to be. -/
theorem test_witness_pairs :
    ∃ (p q : Params) (d : Descriptor), 2 * 1 + 1 < fiveBytes.length ∧ (p.swapSense = .document ∧ d.xswap ≠ false) ∧
      (q.swapSense = .inverted ∧ d.xswap = true) ∧ (p.swapSense = .document ∧ d.xswap = true) ∧
      (q.swapSense = .inverted ∧ d.xswap ≠ false) :=
  ⟨defaultParams, { defaultParams with swapSense := .inverted }, hostDesc 1#16 0#16 0#32 true true 16#32, by decide⟩

/-- OversizeIsRefused, EncapsulateOffersOneBurst: a payload two bytes too long (E8). -/
theorem test_witness_oversize :
    ∃ (s : State) (P : List Byte), s.sess = true ∧ s.term = false ∧ s.frameLen.toNat ≤ s.params.frameBufBytes ∧
      s.desc.offset.toNat ≤ s.frameLen.toNat ∧ s.desc.period.toNat ≠ 0 ∧ s.desc.period.toNat % 2 = 0 ∧
      payloadBytes s = .ok P ∧ s.desc.period.toNat < (if s.desc.pre then 8 else 0) + (P.length + P.length % 2) :=
  ⟨encSession false false true 12#32 fiveBytes, fiveBytes, rfl, rfl, by decide, by decide, by decide, by decide, rfl,
    by decide⟩

/-- PaddingFillsThePeriod: a period that just fits (E9), and one with padding (E1) at its first and last byte. -/
theorem test_witness_padding :
    headLen true + ceil2 fiveBytes.length ≤ (hostDesc 1#16 40#16 0#32 false true 14#32).period.toNat ∧
      ∃ d : Descriptor, headLen d.pre + ceil2 fiveBytes.length ≤ d.period.toNat ∧
        (headLen d.pre + ceil2 fiveBytes.length ≤ 14 ∧ 14 < d.period.toNat) ∧
        (headLen d.pre + ceil2 fiveBytes.length ≤ 15 ∧ 15 < d.period.toNat) :=
  ⟨by decide, hostDesc 1#16 40#16 0#32 false true 16#32, by decide⟩

/-- EncapsulateOffersOneBurst: a payload that just fits, and the empty payload at `DESC_OFFSET = FRAME_LEN`, with a SINK that
answers, by a fixed answer and by a free value. -/
theorem test_witness_encapsulate :
    (∃ (s : State) (P : List Byte), s.sess = true ∧ s.term = false ∧ s.frameLen.toNat ≤ s.params.frameBufBytes ∧
      s.desc.offset.toNat ≤ s.frameLen.toNat ∧ s.desc.period.toNat ≠ 0 ∧ s.desc.period.toNat % 2 = 0 ∧
      payloadBytes s = .ok P ∧ headLen s.desc.pre + ceil2 P.length ≤ s.desc.period.toNat ∧
      s.sinkPlan.head? ≠ some .silent) ∧
      ∃ s : State, s.sess = true ∧ s.term = false ∧ s.frameLen.toNat ≤ s.params.frameBufBytes ∧
        s.desc.offset.toNat = s.frameLen.toNat ∧ s.desc.period.toNat ≠ 0 ∧ s.desc.period.toNat % 2 = 0 ∧
        payloadBytes s = .ok [] ∧ headLen s.desc.pre + ceil2 0 ≤ s.desc.period.toNat ∧
        s.sinkPlan.head? ≠ some .silent :=
  ⟨⟨encSession false false true 14#32 fiveBytes, fiveBytes, rfl, rfl, by decide, by decide, by decide, by decide, rfl,
      by decide, by decide⟩,
    ⟨{ encSession false false true 14#32 fiveBytes with
        desc := hostDesc 1#16 0#16 5#32 false true 8#32, sinkPlan := [] }, rfl, rfl, by decide, by decide, by decide,
      by decide, rfl, by decide, by decide⟩⟩

/-- EncapsulateOffersOneBurst: the same with a SINK that never answers. -/
theorem test_witness_encapsulate_silent :
    ∃ (s : State) (P : List Byte), s.sess = true ∧ s.term = false ∧ s.frameLen.toNat ≤ s.params.frameBufBytes ∧
      s.desc.offset.toNat ≤ s.frameLen.toNat ∧ s.desc.period.toNat ≠ 0 ∧ s.desc.period.toNat % 2 = 0 ∧
      payloadBytes s = .ok P ∧ headLen s.desc.pre + ceil2 P.length ≤ s.desc.period.toNat ∧
      s.sinkPlan.head? = some .silent :=
  ⟨{ encSession false false true 14#32 fiveBytes with sinkPlan := [.silent] }, fiveBytes, rfl, rfl, by decide, by decide,
    by decide, by decide, rfl, by decide, rfl⟩

/-- AggregationJoinsAndFlushes: a sub-frame that does not fit, one that is kept, and one that completes the burst; the
counter at both its ends. -/
theorem test_witness_aggregation :
    ∃ r : Inspected,
      ((aggHalf []).fill.toNat < 255 ∧
        r.desc.period.toNat < headLen r.desc.pre + ceil2 ((aggHalf []).acc.length + (frameI2 ++ fiveBytes).length)) ∧
      ((aggSession []).fill.toNat < 255 ∧
        headLen r.desc.pre + ceil2 ((aggSession []).acc.length + frameI2.length) ≤ r.desc.period.toNat ∧
        (aggSession []).fill.toNat + 1 < 2) ∧
      ({ aggHalf [] with fill := 254#8 }.fill.toNat < 255 ∧
        headLen r.desc.pre + ceil2 ({ aggHalf [] with fill := 254#8 }.acc.length + frameI2.length) ≤ r.desc.period.toNat ∧
        255 ≤ { aggHalf [] with fill := 254#8 }.fill.toNat + 1 ∧
        { aggHalf [] with fill := 254#8 }.sinkPlan.head? ≠ some .silent) :=
  ⟨⟨.ac3, hostDesc 1#16 48#16 0#32 false true 24#32⟩, by decide⟩

/-- The invariant, in the middle of an aggregation. -/
theorem test_witness_inv : StateInv (aggHalf frameI2) := by
  constructor <;> decide

/-- AggregationStates, StepKeepsInv: a SUBMIT and a step from that state. -/
theorem test_witness_inv_step :
    (∃ t, exec .submit (aggHalf frameI2) = .next t ∧ decide (t.fill = 0#8) = true) ∧
      (∃ t, exec .submit (aggSession frameI2) = .next t ∧ decide (t.fill = 1#8) = true) ∧
      ∃ t, step (aggHalf frameI2) = .next t ∧ decide (t.hostQueue = []) = true :=
  ⟨of_nextSat (by decide), of_nextSat (by decide), of_nextSat (by decide)⟩

/-- SinkOfferIsADraw: the ends of what a SINK may take. -/
theorem test_witness_draw :
    (0 : Nat) ≤ fiveBytes.length ∧ 5 ≤ fiveBytes.length ∧ ([SinkAnswer.silent]).head? = some .silent ∧
      (session false 0#3 []).sinkPlan.head? ≠ some .silent := by decide

/-- OfferIsReported, EncapsulateTwice, StreamOnlyGrows, CoreReadsOnlyTheFrame: two bursts taken whole. -/
theorem test_witness_twice :
    ∃ t, exec .encapsulate (encSession false false true 14#32 fiveBytes) = .next t ∧
      decide (t.err = .ok) = true ∧
      nextSat (exec .encapsulate t) (fun u => u.err == .ok && u.stream.length == 28) = true :=
  ⟨_, rfl, by decide, by decide⟩

/-- IdleProfileIsNotRead, CoreReadsOnlyTheFrame, StreamOnlyGrows: no sub-frame held; two buffers that agree below
`FRAME_LEN` and differ at it; no access left. -/
theorem test_witness_unread :
    (session false 0#3 frameI2).fill = 0#8 ∧
      (∀ k, k < (session false 0#3 frameI2).frameLen.toNat →
        memRead (fbFrom 0 (frameI2 ++ [0xAA#8])) k = memRead (session false 0#3 frameI2).fb k) ∧
      memRead (fbFrom 0 (frameI2 ++ [0xAA#8])) 6 ≠ memRead (session false 0#3 frameI2).fb 6 ∧
      State.reset.hostQueue = [] := by decide

/-- FrameOfOpenAndClose, FrameOfInspect, FrameOfEncapsulate, FrameOfSubmit: each command ends in a next state, and INSPECT
and SUBMIT also without writing `DESC_*`. -/
theorem test_witness_frames :
    (∃ t, exec (.openSession true .dts) State.reset = .next t ∧ decide (t.sess = true) = true) ∧
      (∃ t, exec .closeSession (session true 1#3 frameI7) = .next t ∧ decide (t.sess = false) = true) ∧
      (∃ t, exec .inspect (session true 1#3 frameI7) = .next t ∧ decide (t.err = .ok) = true) ∧
      (∃ t, exec .inspect (session true 1#3 frameI2) = .next t ∧ decide (t.err ≠ .ok) = true) ∧
      (∃ t, exec .encapsulate (encSession true true false 6#32 fiveBytes) = .next t ∧ decide (t.err = .ok) = true) ∧
      (∃ t, exec .encapsulate (encSession true true false 4#32 fiveBytes) = .next t ∧
        decide (t.err ≠ .ok ∧ t.err ≠ .sinkWriteFailure) = true) ∧
      (∃ t, exec .submit (aggHalf frameI2) = .next t ∧ decide (t.err = .ok) = true) ∧
      ∃ t, exec .submit (aggHalf frameI3) = .next t ∧
        decide (t.err ≠ .ok ∧ t.err ≠ .sinkWriteFailure ∧ t.err ≠ .payloadTooLarge) = true :=
  ⟨of_nextSat (by decide), of_nextSat (by decide), of_nextSat (by decide), of_nextSat (by decide), of_nextSat (by decide),
    of_nextSat (by decide), of_nextSat (by decide), of_nextSat (by decide)⟩

end Sys2Proof.Tests
end

/-! ### One step, by what it fetches and by the oldest HOST access -/

namespace Sys2Proof.Machine

/-- A HOST access that starts no command is performed on the state without it (20_memory R64). -/
theorem step_access {s : State} {e : HostEvent} (h : commandOf s.params e = none) (rest : List HostEvent) :
    step { s with hostQueue := e :: rest } = hostAccess e { s with hostQueue := rest } := by
  simp [step, fetch, popEvent, h]

/-- A write to `CMD` of a word that decodes runs its command (10_state R23). -/
theorem step_cmdWord_ok {w : Word} {i : Instr} (h : decode w = .ok i) (s : State) (rest : List HostEvent) :
    step { s with hostQueue := cmdWord s.params w :: rest } = exec i { s with hostQueue := rest } := by
  simp [step, fetch, popEvent, h]

/-- A write to `CMD` of a word that does not decode records `ILLEGAL_COMMAND` (60_exceptions R185). -/
theorem step_cmdWord_error {w : Word} {why : DecodeError} (h : decode w = .error why) (s : State)
    (rest : List HostEvent) :
    step { s with hostQueue := cmdWord s.params w :: rest } =
      .next (record .illegalCommand { s with hostQueue := rest }) := by
  simp [step, fetch, popEvent, h, illegalCommand, raise]

/-- A HOST read of a register changes only the model's record of the read (20_memory R52). -/
theorem step_rdReg (s : State) (r : RegName) (rest : List HostEvent) :
    step { s with hostQueue := rdReg s.params r :: rest } =
      .next { s with hostQueue := rest, readData := regRead s r } := by
  have hread : regRead { s with hostQueue := rest } r = regRead s r := by cases r <;> rfl
  rw [step_access (by rfl), rdReg]
  simp [hostAccess, hostRead, target_reg, hread]

/-- A step that ends in a next state was idle, a HOST access, a command or an illegal word, as fetched. -/
theorem step_next_cases {s t : State} (h : step s = .next t) :
    (fetch s = .idle ∧ t = s) ∨
    (∃ e, fetch s = .access e ∧ hostAccess e (popEvent s) = .next t) ∨
    (∃ i, fetch s = .command i ∧ exec i (popEvent s) = .next t) ∨
    ∃ why, fetch s = .illegal why ∧ t = record .illegalCommand (popEvent s) := by
  unfold step at h
  cases hf : fetch s with
  | idle =>
    rw [hf] at h
    cases h
    exact .inl ⟨rfl, rfl⟩
  | access e =>
    rw [hf] at h
    exact .inr (.inl ⟨e, rfl, h⟩)
  | command i =>
    rw [hf] at h
    exact .inr (.inr (.inl ⟨i, rfl, h⟩))
  | illegal why =>
    rw [hf] at h
    cases h
    exact .inr (.inr (.inr ⟨why, rfl, rfl⟩))

/-- Settles O6: the step equations of a write to `CMD` and of a register read. -/
theorem commandWriteRunsTheCommand : Obligations.CommandWriteRunsTheCommand := fun s rest _ =>
  ⟨fun _ h => step_cmdWord_ok h s rest, fun _ h => step_cmdWord_error h s rest, step_rdReg s .cmd rest⟩

/-! ### Reset -/

/-- Every register reads 0 after the platform's reset (10_state R22, R34). -/
theorem regRead_applyReset (s : State) (r : RegName) : regRead (applyReset s) r = 0#32 := by
  have hreset : regRead (applyReset s) r = regRead State.reset r := by cases r <;> rfl
  rw [hreset]
  cases r <;> decide

/-- Settles O17: the step of a reset ends in `applyReset`, whose fields are those of `State.reset`. -/
theorem resetValues : Obligations.ResetValues := by
  intro s rest
  refine ⟨applyReset { s with hostQueue := rest }, step_access (by rfl) rest, regRead_applyReset _, ?_⟩
  simp [State.reset, memRead, applyReset]

/-! ### The session bits (10_state R27) -/

/-- An offer to the SINK leaves the session bits alone. -/
theorem sinkOffer_sessionBits {bytes : List Byte} {s t : State} (h : sinkOffer bytes s = .next t) :
    t.sess = s.sess ∧ t.term = s.term := by
  obtain ⟨a, -, -, rfl⟩ := sinkOffer_next h
  exact ⟨rfl, rfl⟩

/-- A frame command keeps the session bits, unless it is INSPECT or SUBMIT dispatching a codec without an inspector,
which sets `TERM` (42_session R156). -/
theorem frameCommand_sessionBits {i : Instr} {s t : State} (hi : frameCommand i = true) (h : exec i s = .next t) :
    (t.sess = s.sess ∧ t.term = s.term) ∨
    ((i = .inspect ∨ i = .submit) ∧ s.sess = true ∧ 3 ≤ s.codec.toNat ∧
      t = record .unsupportedCodec { s with term := true }) := by
  have hends := exec_ends i s
  rw [h] at hends
  generalize hr : (Host.Outcome.next t : Result) = r at hends
  cases hends with
  | sessionOpen | opened | closed => cases hi
  | noInspector _ hdispatch hsess _ hcodec =>
    cases hr
    exact .inr ⟨hdispatch, hsess, (codecSupported_false_iff _).1 hcodec, rfl⟩
  | encapsulated | submitted | flushed => exact .inl (by simpa using sinkOffer_sessionBits hr.symm)
  | unwritten => cases hr
  | _ =>
    cases hr
    exact .inl ⟨rfl, rfl⟩

/-- A HOST access other than reset keeps the session bits. -/
theorem hostAccess_sessionBits {e : HostEvent} {s t : State} (h : hostAccess e s = .next t) :
    e = .reset ∨ (t.sess = s.sess ∧ t.term = s.term) := by
  obtain ⟨he, -⟩ | ⟨m, d, len, rd, n, rfl, -⟩ := hostAccess_next h
  · exact .inl he
  · exact .inr ⟨rfl, rfl⟩

/-- What a step does to the session bits: OPEN, CLOSE and reset write them, the dispatch of INSPECT or SUBMIT sets
`TERM`, every other step keeps them. -/
theorem step_sessionBits {s t : State} (h : step s = .next t) :
    ((∃ be c, fetch s = .command (.openSession be c)) ∨ fetch s = .command .closeSession ∨
      fetch s = .access .reset) ∨
    (t.sess = s.sess ∧ t.term = s.term) ∨
    ((fetch s = .command .inspect ∨ fetch s = .command .submit) ∧ s.sess = true ∧ 3 ≤ s.codec.toNat ∧
      t = record .unsupportedCodec { popEvent s with term := true }) := by
  obtain ⟨-, rfl⟩ | ⟨e, hf, ha⟩ | ⟨i, hf, hx⟩ | ⟨why, -, rfl⟩ := step_next_cases h
  · exact .inr (.inl ⟨rfl, rfl⟩)
  · obtain rfl | hkeep := hostAccess_sessionBits ha
    · exact .inl (.inr (.inr hf))
    · exact .inr (.inl hkeep)
  · cases i with
    | openSession be c => exact .inl (.inl ⟨be, c, hf⟩)
    | closeSession => exact .inl (.inr (.inl hf))
    | inspect | encapsulate | submit =>
      exact .inr ((frameCommand_sessionBits rfl hx).imp id (by simp [hf]))
  · exact .inr (.inl ⟨rfl, rfl⟩)

/-- Settles O10: the three cases of `step_sessionBits`. -/
theorem sessionBitsWriters : Obligations.SessionBitsWriters := by
  intro s t h
  obtain hwriter | ⟨hsess, hterm⟩ | ⟨hf, hopen, hcodec, rfl⟩ := step_sessionBits h
  · exact ⟨fun _ => hwriter, fun _ => hwriter.imp id (.imp id .inl)⟩
  · exact ⟨absurd hsess, absurd hterm⟩
  · exact ⟨absurd rfl, fun _ => .inr (.inr (.inr ⟨hf, hopen, hcodec, rfl, rfl⟩))⟩

end Sys2Proof.Machine

/-! ### Refused HOST accesses (20_memory R53, R54) -/

namespace Sys2Proof.Machine

/-- The registers stand at the multiples of 4 of the register space (10_state R22). -/
theorem regAt_eq_none_iff {o : Nat} (h : o < regSpaceEnd) : regAt o = none ↔ o % 4 ≠ 0 := by
  have hall : ∀ o < regSpaceEnd, regAt o = none ↔ o % 4 ≠ 0 := by decide
  exact hall o h

/-- Offsets count from `IBE_BASE` (20_memory R61). -/
theorem target_base_add (p : Params) (o width : Nat) : target p (p.ibeBase + o) width = targetAt p o width := by
  simp [target]

/-- A 32-bit access at a multiple of 4 in the register space, or an 8-bit access in the frame buffer. -/
def Addressable (p : Params) (o width : Nat) : Prop :=
  (o < regSpaceEnd ∧ o % 4 = 0 ∧ width = 32) ∨ (fbOffset ≤ o ∧ o < fbOffset + p.frameBufBytes ∧ width = 8)

/-- An access reaches nothing exactly outside the rules of 20_memory R53. -/
theorem targetAt_nothing_iff (p : Params) (o width : Nat) :
    (∃ why, targetAt p o width = .nothing why) ↔ ¬Addressable p o width := by
  unfold targetAt Addressable
  by_cases hreg : o < regSpaceEnd
  · have hfb : ¬fbOffset ≤ o := by simp only [regSpaceEnd, fbOffset] at *; omega
    by_cases hw : width = 32
    · have hnone := regAt_eq_none_iff hreg
      cases hr : regAt o with
      | none => simp [hreg, hfb, hw, hnone.1 hr]
      | some r =>
        have haligned : o % 4 = 0 := by simpa [hr] using hnone
        simp [hreg, hw, haligned]
    · simp [hreg, hfb, hw]
  · by_cases hfb : fbOffset ≤ o ∧ o < fbOffset + p.frameBufBytes
    · by_cases hw : width = 8 <;> simp [hreg, hfb, hw]
    · have hout : ¬(fbOffset ≤ o ∧ o < fbOffset + p.frameBufBytes ∧ width = 8) := fun ⟨hlo, hhi, _⟩ => hfb ⟨hlo, hhi⟩
      simp only [hreg, hfb, hout, if_false, false_and, or_self, not_false_iff, iff_true]
      exact ⟨_, rfl⟩

/-- A HOST read is refused exactly where its address reaches nothing, under the name given there. -/
theorem hostRead_refused_iff {addr width : Nat} {s : State} {why : Refusal} :
    hostRead addr width s = .refused why ↔ target s.params addr width = .nothing why := by
  unfold hostRead
  cases target s.params addr width with
  | reg r => simp
  | cell i => cases hm : memRead s.fb i <;> simp [hm]
  | nothing why' => simp

/-- A HOST write is refused exactly where its address reaches nothing, under the name given there. -/
theorem hostWrite_refused_iff {addr width : Nat} {v : Word} {s : State} {why : Refusal} :
    hostWrite addr width v s = .refused why ↔ target s.params addr width = .nothing why := by
  unfold hostWrite
  cases target s.params addr width <;> simp

/-- No command is refused. -/
theorem exec_not_refused {i : Instr} {s : State} {why : Refusal} : exec i s ≠ .refused why := by
  intro h
  have hends := exec_ends i s
  rw [h] at hends
  generalize hr : (Host.Outcome.refused why : Result) = r at hends
  cases hends with
  | encapsulated | submitted | flushed => exact sinkOffer_not_refused hr.symm
  | _ => cases hr

/-- A step performing a HOST read is refused exactly where the read's address reaches nothing. -/
theorem step_read_refused_iff {s : State} {rest : List HostEvent} {addr width : Nat} {why : Refusal} :
    step { s with hostQueue := .read addr width :: rest } = .refused why ↔
      target s.params addr width = .nothing why := by
  rw [step_access (by rfl)]
  exact hostRead_refused_iff

/-- A step that runs the word of a command write is not refused, whether the word decodes or not. -/
theorem step_command_not_refused {s : State} {e : HostEvent} {w : Word} {why : Refusal}
    (h : commandOf s.params e = some w) (rest : List HostEvent) :
    step { s with hostQueue := e :: rest } ≠ .refused why := by
  cases hd : decode w with
  | ok i => simp [step, fetch, h, hd, exec_not_refused]
  | error d => simp [step, fetch, h, hd, illegalCommand, raise]

/-- A step performing a HOST write is refused exactly where the write's address reaches nothing; a write to `CMD` reaches
its register and is never refused. -/
theorem step_write_refused_iff {s : State} {rest : List HostEvent} {addr width : Nat} {v : Word} {why : Refusal} :
    step { s with hostQueue := .write addr width v :: rest } = .refused why ↔
      target s.params addr width = .nothing why := by
  by_cases hcmd : target s.params addr width = .reg .cmd
  · have hc : commandOf s.params (.write addr width v) = some v := by simp [commandOf, hcmd]
    simp [step_command_not_refused hc, hcmd]
  · rw [step_access (by simp [commandOf, hcmd])]
    exact hostWrite_refused_iff

/-- Settles O59: a step is refused exactly where its access reaches nothing, which is outside the rules. -/
theorem refusedExactlyOutsideTheRules : Obligations.RefusedExactlyOutsideTheRules := by
  rintro s rest o width v e (rfl | rfl)
  · simp only [step_read_refused_iff, target_base_add]
    exact targetAt_nothing_iff s.params o width
  · simp only [step_write_refused_iff, target_base_add]
    exact targetAt_nothing_iff s.params o width

end Sys2Proof.Machine

/-! ### Legal and illegal command words (30_encoding R73, R74) -/

namespace Sys2Proof.Machine

/-- The decoder rejects exactly the words outside the table (30_encoding R73). -/
theorem decode_error_iff {w : Word} :
    (∃ why, decode w = .error why) ↔
      w &&& 0xFFFFF0FF#32 ≠ 0x00000001#32 ∧ w ≠ 0x00000002#32 ∧ w ≠ 0x00000003#32 ∧ w ≠ 0x00000004#32 ∧
        w ≠ 0x00000005#32 := by
  unfold decode
  split_ifs <;> simp_all

/-- A word that is not rejected decodes to a command. -/
theorem decode_ok_of_not_error {w : Word} (h : ¬∃ why, decode w = .error why) : ∃ i, decode w = .ok i := by
  cases hd : decode w with
  | ok i => exact ⟨i, rfl⟩
  | error why => exact absurd ⟨why, hd⟩ h

/-- Settles O3: the words of the table by evaluation, the others by `decode_error_iff`. -/
theorem decodeFollowsTheTable : Obligations.DecodeFollowsTheTable := by
  intro w
  refine ⟨fun h => if_pos h, ?_, ?_, ?_, ?_, fun h1 h2 h3 h4 h5 => decode_error_iff.2 ⟨h1, h2, h3, h4, h5⟩⟩
  all_goals
    rintro rfl
    rfl

/-- Two adjacent fields are equal in two words when the field they make up is. -/
theorem extractLsb'_add_eq_iff {w v : Word} {start m n : Nat} :
    w.extractLsb' start (m + n) = v.extractLsb' start (m + n) ↔
      w.extractLsb' start m = v.extractLsb' start m ∧ w.extractLsb' (start + m) n = v.extractLsb' (start + m) n := by
  constructor
  · intro h
    have hbit (i : Nat) (hi : i < m + n) : w.getLsbD (start + i) = v.getLsbD (start + i) := by
      simpa [hi] using congrArg (·.getLsbD i) h
    constructor <;> apply BitVec.eq_of_getLsbD_eq <;> intro i hi
    · simp [hi, hbit i (by omega)]
    · simp [hi, Nat.add_assoc, hbit (m + i) (by omega)]
  · rintro ⟨hlow, hhigh⟩
    apply BitVec.eq_of_getLsbD_eq
    intro i hi
    by_cases him : i < m
    · simpa [hi, him] using congrArg (·.getLsbD i) hlow
    · have hn : i - m < n := by omega
      have hs : start + m + (i - m) = start + i := by omega
      simpa [hi, hn, hs] using congrArg (·.getLsbD (i - m)) hhigh

/-- Two words are equal when their `OP` fields and the bits above are. -/
theorem word_eq_iff_fields {w v : Word} :
    w = v ↔ w.extractLsb' 0 4 = v.extractLsb' 0 4 ∧ w.extractLsb' 4 28 = v.extractLsb' 4 28 := by
  simpa using extractLsb'_add_eq_iff (w := w) (v := v) (start := 0) (m := 4) (n := 28)

/-- A word has the form of OPEN when its `OP` is 1 and its must-be-zero fields 7:4 and 31:12 are 0 (30_encoding R72). -/
theorem openWord_iff_fields {w : Word} :
    w &&& 0xFFFFF0FF#32 = 0x00000001#32 ↔
      w.extractLsb' 0 4 = 1#4 ∧ w.extractLsb' 4 4 = 0#4 ∧ w.extractLsb' 12 20 = 0#20 := by
  have hmask4 (b : BitVec 4) : b &&& 0xF#4 = b := BitVec.and_allOnes
  have hmask20 (b : BitVec 20) : b &&& 0xFFFFF#20 = b := BitVec.and_allOnes
  rw [word_eq_iff_fields, extractLsb'_add_eq_iff (start := 4) (m := 4) (n := 24),
    extractLsb'_add_eq_iff (start := 8) (m := 4) (n := 20)]
  simp [BitVec.extractLsb'_and, hmask4, hmask20]

/-- A word is one of the four constant commands when its `OP` is 2 to 5 and its must-be-zero field 31:4 is 0
(30_encoding R72). -/
theorem constantWord_iff_fields {w : Word} :
    (w = 0x00000002#32 ∨ w = 0x00000003#32 ∨ w = 0x00000004#32 ∨ w = 0x00000005#32) ↔
      (2 ≤ (w.extractLsb' 0 4).toNat ∧ (w.extractLsb' 0 4).toNat ≤ 5) ∧ w.extractLsb' 4 28 = 0#28 := by
  have hop : ∀ op : BitVec 4, (op = 2#4 ∨ op = 3#4 ∨ op = 4#4 ∨ op = 5#4) ↔ 2 ≤ op.toNat ∧ op.toNat ≤ 5 := by decide
  rw [← hop]
  simp [word_eq_iff_fields (w := w), or_and_right]

/-- The words the decoder rejects, by their fields (30_encoding R74): `OP` is 0 or 6 to 15, or a must-be-zero field of
the command `OP` names is not zero. -/
def IllegalFields (w : Word) : Prop :=
  w.extractLsb' 0 4 = 0#4 ∨ 6 ≤ (w.extractLsb' 0 4).toNat ∨
    (w.extractLsb' 0 4 = 1#4 ∧ (w.extractLsb' 4 4 ≠ 0#4 ∨ w.extractLsb' 12 20 ≠ 0#20)) ∨
    (2 ≤ (w.extractLsb' 0 4).toNat ∧ (w.extractLsb' 0 4).toNat ≤ 5 ∧ w.extractLsb' 4 28 ≠ 0#28)

/-- The decoder rejects exactly the words whose fields R74 calls illegal: in each class of `OP`, what R73 compares with the
table is what R74 asks of the must-be-zero fields. -/
theorem decode_error_iff_illegalFields {w : Word} : (∃ why, decode w = .error why) ↔ IllegalFields w := by
  simp only [decode_error_iff, Ne, openWord_iff_fields, ← not_or, constantWord_iff_fields, IllegalFields]
  have hclass : ∀ op : BitVec 4, op = 0#4 ∨ op = 1#4 ∨ (2 ≤ op.toNat ∧ op.toNat ≤ 5) ∨ 6 ≤ op.toNat := by decide
  generalize w.extractLsb' 0 4 = op
  obtain rfl | rfl | ⟨hlo, hhi⟩ | hop := hclass op
  · simp
  · simp [imp_iff_not_or]
  · have h0 : op ≠ 0#4 := by bv_omega
    have h1 : op ≠ 1#4 := by bv_omega
    have h6 : ¬6 ≤ op.toNat := by omega
    simp [h0, h1, h6, hlo, hhi]
  · have h1 : op ≠ 1#4 := by bv_omega
    have h5 : ¬op.toNat ≤ 5 := by omega
    simp [h1, h5, hop]

/-- Settles O5: an illegal word does not decode, and its step is that of a word that does not decode. -/
theorem illegalWordsAreRecorded : Obligations.IllegalWordsAreRecorded := by
  intro w
  constructor
  · intro hw s rest
    obtain ⟨why, hd⟩ := decode_error_iff_illegalFields.2 hw
    exact step_cmdWord_error hd s rest
  · intro hw
    exact decode_ok_of_not_error (mt decode_error_iff_illegalFields.1 hw)

end Sys2Proof.Machine

/-! ### The bit fields the inspectors read, as arithmetic on the bytes (40_inspectors R96, R100, R106) -/

namespace Sys2Proof.Machine

/-- A mask of the low `k` bits takes the remainder; the mask is any spelling of the number, so that `simp` can rewrite
with a given `k`. -/
theorem and_mask_eq_mod (x k : Nat) {m : Nat} (hm : m = 2 ^ k - 1) : x &&& m = x % 2 ^ k := by
  rw [hm, Nat.and_two_pow_sub_one_eq_mod]

/-- A field put above another that does not reach it is added to it; `m` is any spelling of the power of 2, as above. -/
theorem mul_or_eq_add (k : Nat) {a b m : Nat} (hm : m = 2 ^ k) (hb : b < m) : a * m ||| b = a * m + b := by
  rw [hm, Nat.mul_comm, Nat.two_pow_add_eq_or_of_lt (hm ▸ hb)]

/-- `bsid`, bits 7:3 of its byte (40_inspectors R96). -/
theorem ac3Bsid_toNat (b : Byte) : (b >>> 3).toNat = b.toNat / 8 := by
  simp [Nat.shiftRight_eq_div_pow]

/-- `bsmod`, bits 2:0 of its byte, in bits 10:8 of the data type (40_inspectors R97). -/
theorem ac3Bsmod_shifted (b : Byte) :
    (b &&& 0x07#8).setWidth 16 <<< 8 = BitVec.ofNat 16 (b.toNat % 8 * 256) := by
  apply BitVec.eq_of_toNat_eq
  simp [and_mask_eq_mod _ 3, Nat.shiftLeft_eq]

/-- NBLKS of a 16-bit stream: bits 8:2 of its word (40_inspectors R100). -/
theorem nblks16_eq (hi lo : Byte) : nblks16 hi lo = (hi.toNat * 256 + lo.toNat) / 4 % 128 := by
  simp (disch := omega) [nblks16, Nat.shiftLeft_eq, Nat.shiftRight_eq_div_pow, and_mask_eq_mod _ 7, Nat.mod_eq_of_lt,
    mul_or_eq_add 8]

/-- NBLKS of a 14-bit stream: bits 2:0 of one byte above bits 5:2 of the other (40_inspectors R100). -/
theorem nblks14_eq (hi lo : Byte) : nblks14 hi lo = hi.toNat % 8 * 16 + lo.toNat % 64 / 4 := by
  simp (disch := omega) [nblks14, Nat.shiftLeft_eq, Nat.shiftRight_eq_div_pow, and_mask_eq_mod _ 3, and_mask_eq_mod _ 6,
    Nat.mod_eq_of_lt, mul_or_eq_add 4]

/-- `sampling_frequency_index`: bits 5:2 of its byte (40_inspectors R106). -/
theorem adtsSfIndex_eq (b : Byte) : adtsSfIndex b = b.toNat / 4 % 16 := by
  simp [adtsSfIndex, Nat.shiftRight_eq_div_pow, and_mask_eq_mod _ 4]

/-- `aac_frame_length`: 2 bits, then 8, then 3 (40_inspectors R106). -/
theorem adtsFrameLength_eq (b3 b4 b5 : Byte) :
    adtsFrameLength b3 b4 b5 = b3.toNat % 4 * 2048 + b4.toNat * 8 + b5.toNat / 32 := by
  have hlow : b3.toNat % 4 * 2048 + b4.toNat * 8 ||| b5.toNat / 32 =
      b3.toNat % 4 * 2048 + b4.toNat * 8 + b5.toNat / 32 := by
    rw [show b3.toNat % 4 * 2048 + b4.toNat * 8 = (b3.toNat % 4 * 256 + b4.toNat) * 8 by omega]
    exact mul_or_eq_add 3 rfl (by omega)
  simp (disch := omega) [adtsFrameLength, Nat.shiftLeft_eq, Nat.shiftRight_eq_div_pow, and_mask_eq_mod _ 2,
    Nat.mod_eq_of_lt, mul_or_eq_add 11, hlow]

/-- The high half of the second byte is what that byte adds to the ADTS sync word (40_inspectors R106). -/
theorem and_0xF0_eq_iff (b : Byte) : b &&& 0xF0#8 = 0xF0#8 ↔ b.toNat / 16 = 15 := by
  revert b
  decide

/-! ### The profiles and their codes by the block counts (40_inspectors R91, R101, R109) -/

theorem dtsProfile_iff {blocks : Nat} {pr : Profile} {code : BitVec 4} :
    (blocks = 16 ∧ pr = .dtsI ∧ code = 1#4) ∨ (blocks = 32 ∧ pr = .dtsII ∧ code = 2#4) ∨
        (blocks = 64 ∧ pr = .dtsIII ∧ code = 3#4) ↔
      dtsProfile blocks = some pr ∧ code = profileCode pr := by
  unfold dtsProfile
  split_ifs with h16 h32 h64
  · cases pr <;> simp [h16, profileCode]
  · cases pr <;> simp [h32, profileCode]
  · cases pr <;> simp [h64, profileCode]
  · simp [h16, h32, h64]

theorem aacProfile_iff {b6 : Byte} {pr : Profile} {code : BitVec 4} :
    (b6.toNat % 4 = 0 ∧ pr = .aac1 ∧ code = 4#4) ∨ (b6.toNat % 4 = 1 ∧ pr = .aac2 ∧ code = 5#4) ∨
        (b6.toNat % 4 = 3 ∧ pr = .aac4 ∧ code = 6#4) ↔
      aacProfile b6 = some pr ∧ code = profileCode pr := by
  have hfield : (b6 &&& 0x03#8).toNat = b6.toNat % 4 := by simp [and_mask_eq_mod _ 2]
  have hvalues : b6.toNat % 4 = 0 ∨ b6.toNat % 4 = 1 ∨ b6.toNat % 4 = 2 ∨ b6.toNat % 4 = 3 := by omega
  unfold aacProfile
  rw [hfield]
  obtain h | h | h | h := hvalues
  · cases pr <;> simp [h, profileCode]
  · cases pr <;> simp [h, profileCode]
  · simp [h]
  · cases pr <;> simp [h, profileCode]

/-! ### Which frames each inspector accepts

The checks of an inspector in the order of its definition, each turned into the arithmetic of the lemmas above. -/

theorem inspectAc3_iff {p : Params} {f : List Byte} {r : Inspected} :
    inspectAc3 p f = some r ↔
      ∃ b5 : Byte, 6 ≤ f.length ∧ f[0]? = some 0x0B#8 ∧ f[1]? = some 0x77#8 ∧ f[5]? = some b5 ∧ b5.toNat / 8 ≤ 10 ∧
        r = inspected p .ac3 (p.table.ac3.typeCode ||| BitVec.ofNat 16 (b5.toNat % 8 * 256)) false true f.length := by
  simp only [inspectAc3, Option.ite_none_left_eq_some, Option.bind_eq_bind, Option.bind_eq_some_iff, Option.some_inj,
    ac3Bsid_toNat, ac3Bsmod_shifted, not_or, not_not, not_lt]
  constructor
  · rintro ⟨hlen, _, h0, _, h1, b5, h5, ⟨rfl, rfl⟩, hbsid, rfl⟩
    exact ⟨b5, hlen, h0, h1, h5, hbsid, rfl⟩
  · rintro ⟨b5, hlen, h0, h1, h5, hbsid, rfl⟩
    exact ⟨hlen, _, h0, _, h1, b5, h5, ⟨rfl, rfl⟩, hbsid, rfl⟩

/-- Settles O28: `inspectAc3_iff`, with the descriptor of `inspected` written out. -/
theorem inspectAc3Accepts : Obligations.InspectAc3Accepts :=
  ⟨rfl, fun _ _ _ => inspectAc3_iff⟩

theorem inspectAac_iff {p : Params} {f : List Byte} {r : Inspected} :
    inspectAac p f = some r ↔
      ∃ (b1 b2 b3 b4 b5 b6 : Byte) (pr : Profile),
        7 ≤ f.length ∧ f[0]? = some 0xFF#8 ∧ f[1]? = some b1 ∧ f[2]? = some b2 ∧ f[3]? = some b3 ∧ f[4]? = some b4 ∧
        f[5]? = some b5 ∧ f[6]? = some b6 ∧ b1.toNat / 16 = 15 ∧ b2.toNat / 4 % 16 ≤ 12 ∧
        7 ≤ b3.toNat % 4 * 2048 + b4.toNat * 8 + b5.toNat / 32 ∧ aacProfile b6 = some pr ∧
        r = inspected p pr (profileRow p pr).typeCode false true f.length := by
  simp only [inspectAac, Option.ite_none_left_eq_some, Option.bind_eq_bind, Option.bind_eq_some_iff, Option.pure_def,
    Option.some_inj, adtsSfIndex_eq, adtsFrameLength_eq, and_0xF0_eq_iff, not_or, not_not, ne_eq, not_le,
    Nat.lt_succ_iff]
  constructor
  · rintro ⟨hlen, _, h0, b1, h1, ⟨rfl, hsync⟩, b2, h2, hsf, b3, h3, b4, h4, b5, h5, hfl, b6, h6, pr, hpr, rfl⟩
    exact ⟨b1, b2, b3, b4, b5, b6, pr, hlen, h0, h1, h2, h3, h4, h5, h6, hsync, hsf, hfl, hpr, rfl⟩
  · rintro ⟨b1, b2, b3, b4, b5, b6, pr, hlen, h0, h1, h2, h3, h4, h5, h6, hsync, hsf, hfl, hpr, rfl⟩
    exact ⟨hlen, _, h0, b1, h1, ⟨rfl, hsync⟩, b2, h2, hsf, b3, h3, b4, h4, b5, h5, hfl, b6, h6, pr, hpr, rfl⟩

/-- Settles O30: `inspectAac_iff`, with the profile and its code by the block count. -/
theorem inspectAacAccepts : Obligations.InspectAacAccepts := by
  refine ⟨rfl, rfl, rfl, fun p f r => ?_⟩
  simp only [inspectAac_iff, aacProfile_iff, and_assoc, exists_and_left, exists_eq_left]
  rfl

/-! The DTS inspector reads a marker, then the two bytes that marker says hold the block count. -/

/-- The four bytes of a marker (40_inspectors R100). -/
def dtsMarkerBytes : DtsMarker → List Byte
  | .words16be => [0x7F#8, 0xFE#8, 0x80#8, 0x01#8]
  | .words16le => [0xFE#8, 0x7F#8, 0x01#8, 0x80#8]
  | .words14be => [0x1F#8, 0xFF#8, 0xE8#8, 0x00#8]
  | .words14le => [0xFF#8, 0x1F#8, 0x00#8, 0xE8#8]

theorem dtsMarker_iff {f : List Byte} {m : DtsMarker} : dtsMarker f = some m ↔ f.take 4 = dtsMarkerBytes m := by
  unfold dtsMarker
  split_ifs with h1 h2 h3 h4
  · cases m <;> simp [h1, dtsMarkerBytes]
  · cases m <;> simp [h2, dtsMarkerBytes]
  · cases m <;> simp [h3, dtsMarkerBytes]
  · cases m <;> simp [h4, dtsMarkerBytes]
  · cases m <;> simp [h1, h2, h3, h4, dtsMarkerBytes]

/-- A function of two bytes that a frame may not have answers when it has both. -/
theorem pure_pair_eq_some_iff {x y : Option Byte} {g : Byte → Byte → Nat} {n : Nat} :
    (do return g (← x) (← y)) = some n ↔ ∃ a b, x = some a ∧ y = some b ∧ n = g a b := by
  cases x <;> cases y <;> simp [eq_comm]

theorem dtsNblks_words16be {f : List Byte} {nb : Nat} :
    dtsNblks f .words16be = some nb ↔
      ∃ b4 b5 : Byte, f[4]? = some b4 ∧ f[5]? = some b5 ∧ nb = (b4.toNat * 256 + b5.toNat) / 4 % 128 := by
  simp only [dtsNblks, pure_pair_eq_some_iff, nblks16_eq]

theorem dtsNblks_words16le {f : List Byte} {nb : Nat} :
    dtsNblks f .words16le = some nb ↔
      ∃ b4 b5 : Byte, f[4]? = some b4 ∧ f[5]? = some b5 ∧ nb = (b5.toNat * 256 + b4.toNat) / 4 % 128 := by
  simp only [dtsNblks, pure_pair_eq_some_iff, nblks16_eq]
  rw [exists_comm]
  simp only [and_left_comm]

theorem dtsNblks_words14be {f : List Byte} {nb : Nat} :
    dtsNblks f .words14be = some nb ↔
      ∃ b5 b6 : Byte, f[5]? = some b5 ∧ f[6]? = some b6 ∧ nb = b5.toNat % 8 * 16 + b6.toNat % 64 / 4 := by
  simp only [dtsNblks, pure_pair_eq_some_iff, nblks14_eq]

theorem dtsNblks_words14le {f : List Byte} {nb : Nat} :
    dtsNblks f .words14le = some nb ↔
      ∃ b4 b7 : Byte, f[4]? = some b4 ∧ f[7]? = some b7 ∧ nb = b4.toNat % 8 * 16 + b7.toNat % 64 / 4 := by
  simp only [dtsNblks, pure_pair_eq_some_iff, nblks14_eq]

/-- A frame that has the bytes of its block count is as long as its marker asks. -/
theorem dtsMinLen_le_of_dtsNblks {f : List Byte} {m : DtsMarker} {nb : Nat} (h : dtsNblks f m = some nb) :
    dtsMinLen m ≤ f.length := by
  cases m with
  | words16be =>
    obtain ⟨_, _, -, h5, -⟩ := dtsNblks_words16be.1 h
    exact (List.getElem?_eq_some_iff.1 h5).1
  | words16le =>
    obtain ⟨_, _, -, h5, -⟩ := dtsNblks_words16le.1 h
    exact (List.getElem?_eq_some_iff.1 h5).1
  | words14be =>
    obtain ⟨_, _, -, h6, -⟩ := dtsNblks_words14be.1 h
    exact (List.getElem?_eq_some_iff.1 h6).1
  | words14le =>
    obtain ⟨_, _, -, h7, -⟩ := dtsNblks_words14le.1 h
    exact (List.getElem?_eq_some_iff.1 h7).1

theorem exists_dtsMarker_iff {P : DtsMarker → Prop} :
    (∃ m, P m) ↔ P .words16be ∨ P .words16le ∨ P .words14be ∨ P .words14le := by
  constructor
  · rintro ⟨m, hm⟩
    cases m <;> simp [hm]
  · rintro (h | h | h | h) <;> exact ⟨_, h⟩

theorem dtsPre_eq (p : Params) (pr : Profile) (n : Nat) :
    dtsPre p pr n = if p.dtsRawFit = true ∧ n = (profileRow p pr).period.toNat then false else true := by
  simp [dtsPre]

theorem inspectDts_iff {p : Params} {f : List Byte} {r : Inspected} :
    inspectDts p f = some r ↔
      ∃ (nb : Nat) (x : Bool) (pr : Profile),
        (∃ m, f.take 4 = dtsMarkerBytes m ∧ x = dtsXswap m ∧ dtsNblks f m = some nb) ∧
        dtsProfile (nb + 1) = some pr ∧
        r = inspected p pr (profileRow p pr).typeCode x (dtsPre p pr f.length) f.length := by
  simp only [inspectDts, Option.ite_none_left_eq_some, Option.bind_eq_bind, Option.bind_eq_some_iff, dtsMarker_iff,
    not_lt, Option.pure_def, Option.some_inj]
  constructor
  · rintro ⟨-, m, hm, -, nb, hnb, pr, hpr, rfl⟩
    exact ⟨nb, _, pr, ⟨m, hm, rfl, hnb⟩, hpr, rfl⟩
  · rintro ⟨nb, _, pr, ⟨m, hm, rfl, hnb⟩, hpr, rfl⟩
    have hlen := dtsMinLen_le_of_dtsNblks hnb
    have hmin : 4 ≤ dtsMinLen m := by cases m <;> decide
    exact ⟨hmin.trans hlen, m, hm, hlen, nb, hnb, pr, hpr, rfl⟩

theorem emitBurst_tooLarge {f : List Byte} {d : Descriptor} {s : State}
    (h : d.period.toNat < burstSize d.pre f.length) : emitBurst f d s = .next (record .payloadTooLarge s) :=
  if_pos h

/-- Settles O29: `inspectDts_iff`, marker by marker, with the profile and its code by the block count; a preamble takes
8 bytes of the room `emitBurst` asks for. -/
theorem inspectDtsAccepts : Obligations.InspectDtsAccepts := by
  refine ⟨rfl, rfl, rfl, fun p f r => ?_, fun s f d hpre hroom => ?_⟩
  · simp only [inspectDts_iff, exists_dtsMarker_iff, dtsNblks_words16be, dtsNblks_words16le, dtsNblks_words14be,
      dtsNblks_words14le, dtsProfile_iff, dtsPre_eq, and_assoc, exists_and_left, exists_eq_left]
    rfl
  · have hsize : d.period.toNat < burstSize d.pre f.length := by
      simp only [burstSize, hpre, if_true, ceil2]
      omega
    exact emitBurst_tooLarge hsize

/-! ### What the inspectors have in common (40_inspectors R93) -/

theorem inspectAs_eq_inspected {p : Params} {f : List Byte} {c : Codec} {r : Inspected} (h : inspectAs p f c = some r) :
    ∃ pr type xswap pre, r = inspected p pr type xswap pre f.length := by
  cases c with
  | ac3 =>
    obtain ⟨_, -, -, -, -, -, rfl⟩ := inspectAc3_iff.1 h
    exact ⟨_, _, _, _, rfl⟩
  | dts =>
    obtain ⟨_, _, _, -, -, -, rfl⟩ := inspectDts_iff.1 h
    exact ⟨_, _, _, _, rfl⟩
  | adtsAac =>
    obtain ⟨_, _, _, _, _, _, _, -, -, -, -, -, -, -, -, -, -, -, -, rfl⟩ := inspectAac_iff.1 h
    exact ⟨_, _, _, _, rfl⟩
  | unsupported _ => cases h

/-- Settles O31: every accepted frame's descriptor is one of `inspected`. -/
theorem inspectorLengthCode : Obligations.InspectorLengthCode := by
  intro p f c r h
  obtain ⟨pr, type, xswap, pre, rfl⟩ := inspectAs_eq_inspected h
  exact ⟨rfl, BitVec.toNat_ofNat _ _⟩

/-! ### INSPECT (40_inspectors R90)

`inspectFrame` makes the checks of INSPECT and of SUBMIT: what it answers where each check is the first to fail. -/

section
variable {s : State}

theorem inspectFrame_noSession (hsess : s.sess = false) : inspectFrame s = .error (.next (record .noSession s)) := by
  simp [inspectFrame, hsess, raise]

theorem inspectFrame_terminated (hsess : s.sess = true) (hterm : s.term = true) :
    inspectFrame s = .error (.next (record .unsupportedCodec s)) := by
  simp [inspectFrame, hsess, hterm, raise]

theorem inspectFrame_noInspector (hsess : s.sess = true) (hterm : s.term = false)
    (hcodec : codecSupported s.codec = false) :
    inspectFrame s = .error (.next (record .unsupportedCodec { s with term := true })) := by
  simp [inspectFrame, hsess, hterm, hcodec, raise]

theorem inspectFrame_frameTooLong (hsess : s.sess = true) (hterm : s.term = false)
    (hcodec : codecSupported s.codec = true) (hlong : frameTooLong s = true) :
    inspectFrame s = .error (.next (record .badParameter s)) := by
  simp [inspectFrame, hsess, hterm, hcodec, hlong, raise]

theorem inspectFrame_unrecognized {f : List Byte} (hr : Ready s) (hcodec : codecSupported s.codec = true)
    (hf : frameBytes s = .ok f) (hnone : inspectAs s.params f (Codec.ofCode s.codec) = none) :
    inspectFrame s = .error (.next (record .unrecognizedFrame s)) := by
  simp [inspectFrame, hr.sess, hr.term, hr.fits, hcodec, hf, hnone, raise]

/-- No inspector accepts the empty frame. -/
theorem inspectFrame_empty (hsess : s.sess = true) (hterm : s.term = false)
    (hcodec : codecSupported s.codec = true) (hlen : s.frameLen = 0#32) :
    inspectFrame s = .error (.next (record .unrecognizedFrame s)) := by
  have hfits : frameTooLong s = false := by simp [frameTooLong_false_iff, hlen]
  have hbytes : frameBytes s = .ok [] := by simp [frameBytes, frameCount, hlen, readRange]
  have hnone : inspectAs s.params [] (Codec.ofCode s.codec) = none := by cases Codec.ofCode s.codec <;> rfl
  exact inspectFrame_unrecognized ⟨hsess, hterm, hfits⟩ hcodec hbytes hnone

/-- INSPECT ends where the checks or the inspection end it. -/
theorem exec_inspect_of_error {o : Result} (h : inspectFrame s = .error o) : exec .inspect s = o := by
  simp [exec, execInspect, h]

/-- INSPECT loads the descriptor of a frame that passes. -/
theorem exec_inspect_of_ok {f : List Byte} {r : Inspected} (h : inspectFrame s = .ok (f, r)) :
    exec .inspect s = .next (record .ok (writeDesc r.desc s)) := by
  simp [exec, execInspect, h, complete]

end

/-- Settles O33: each clause by what `inspectFrame` answers. -/
theorem inspectLoadsTheDescriptor : Obligations.InspectLoadsTheDescriptor := by
  refine ⟨rfl, fun s => ⟨?_, ?_, ?_, fun hsess hterm hlt => ?_⟩⟩
  · exact fun hsess => exec_inspect_of_error (inspectFrame_noSession hsess)
  · exact fun hsess hterm => exec_inspect_of_error (inspectFrame_terminated hsess hterm)
  · exact fun hsess hterm hge =>
      exec_inspect_of_error (inspectFrame_noInspector hsess hterm ((codecSupported_false_iff _).2 hge))
  · have hcodec := (codecSupported_iff _).2 hlt
    refine ⟨fun hlong => ?_, fun hlen => ?_, fun hfits f hf => ?_⟩
    · exact exec_inspect_of_error (inspectFrame_frameTooLong hsess hterm hcodec ((frameTooLong_iff s).2 hlong))
    · exact exec_inspect_of_error (inspectFrame_empty hsess hterm hcodec hlen)
    · have hready : Ready s := ⟨hsess, hterm, (frameTooLong_false_iff s).2 hfits⟩
      exact ⟨fun hnone => exec_inspect_of_error (inspectFrame_unrecognized hready hcodec hf hnone),
        fun r hr => exec_inspect_of_ok (inspectFrame_of hready hcodec hf hr)⟩

end Sys2Proof.Machine

/-! ### The parts of a burst and where they stand (41_encapsulator R121 to R128) -/

namespace Sys2Proof.Machine

/-- Settles O34: the two bytes that `w16` writes, as quotient and remainder. -/
theorem w16Order : Obligations.W16Order := by
  intro v
  have hhigh : v.extractLsb' 8 8 = BitVec.ofNat 8 (v.toNat / 256) := by
    simp [BitVec.extractLsb', Nat.shiftRight_eq_div_pow]
  have hlow : v.extractLsb' 0 8 = BitVec.ofNat 8 (v.toNat % 256) := by
    apply BitVec.eq_of_toNat_eq
    simp
  simp [w16, hhigh, hlow]

/-- The writer on a byte in the most significant half of a unit (41_encapsulator R125). -/
theorem w16_highByte (be : Bool) (b : Byte) :
    w16 be (b.setWidth 16 <<< 8) = if be then [b, 0x00#8] else [0x00#8, b] := by
  have hbytes : ∀ b : Byte,
      (b.setWidth 16 <<< 8).extractLsb' 8 8 = b ∧ (b.setWidth 16 <<< 8).extractLsb' 0 8 = 0x00#8 := by
    decide
  simp [w16, hbytes b]

/-- The combined flag of 41_encapsulator R123 by the swap sense. -/
theorem swapPayload_true_iff (p : Params) (be xswap : Bool) :
    swapPayload p be xswap = true ↔
      (p.swapSense = .document ∧ xswap ≠ be) ∨ (p.swapSense = .inverted ∧ xswap = be) := by
  unfold swapPayload
  cases p.swapSense <;> simp

theorem swapPayload_false_iff (p : Params) (be xswap : Bool) :
    swapPayload p be xswap = false ↔
      (p.swapSense = .document ∧ xswap = be) ∨ (p.swapSense = .inverted ∧ xswap ≠ be) := by
  unfold swapPayload
  cases p.swapSense <;> simp

/-- The two bytes of the `j`-th whole pair of the payload, in order or in reverse (41_encapsulator R124). -/
theorem body_pair (swap : Bool) (P : List Byte) {j : Nat} (hj : 2 * j + 1 < P.length) :
    (body swap P)[2 * j]? = (if swap then P[2 * j + 1]? else P[2 * j]?) ∧
      (body swap P)[2 * j + 1]? = if swap then P[2 * j]? else P[2 * j + 1]? := by
  induction P using body.induct generalizing j with
  | case1 a b rest ih =>
    cases j with
    | zero => cases swap <;> simp [body]
    | succ j =>
      have hrest := ih (j := j) (by simp only [List.length_cons] at hj; omega)
      rw [show 2 * (j + 1) = 2 * j + 1 + 1 by omega]
      cases swap <;> simpa [body] using hrest
  | case2 P hP =>
    match P with
    | [] | [_] => simp at hj
    | a :: b :: rest => exact absurd rfl (hP a b rest)

/-- An even payload has no trailing unit (41_encapsulator R125). -/
theorem trail_of_even (be : Bool) {P : List Byte} (h : P.length % 2 = 0) : trail be P = [] :=
  List.eq_nil_of_length_eq_zero (by rw [trail_length, h])

/-- The trailing unit of an odd payload is its last byte in the most significant half (41_encapsulator R125). -/
theorem trail_of_odd (be : Bool) {P : List Byte} {b : Byte} (h : P.length % 2 = 1) (hb : P.getLast? = some b) :
    trail be P = if be then [b, 0x00#8] else [0x00#8, b] := by
  simp only [trail, hb, h, if_true, w16_highByte]

/-- The size of a burst before padding, in the words of the claims (41_encapsulator R126). -/
theorem burstSize_eq (pre : Bool) (n : Nat) : burstSize pre n = headLen pre + ceil2 n := rfl

/-- What stands before the payload: the preamble, where it is enabled (41_encapsulator R122). -/
def burstHead (p : Params) (be : Bool) (d : Descriptor) : List Byte := if d.pre then preamble p be d else []

@[simp] theorem burstHead_length (p : Params) (be : Bool) (d : Descriptor) :
    (burstHead p be d).length = headLen d.pre := by
  unfold burstHead headLen
  split <;> simp

/-- The padding of a burst of `n` payload bytes (41_encapsulator R127). -/
def padding (d : Descriptor) (n : Nat) : List Byte := List.replicate (d.period.toNat - burstSize d.pre n) 0x00#8

/-- A burst by its four parts. -/
theorem burst_eq (p : Params) (be : Bool) (P : List Byte) (d : Descriptor) :
    burst p be P d =
      burstHead p be d ++ (body (swapPayload p be d.xswap) P ++ (trail be P ++ padding d P.length)) := by
  simp [burst, burstHead, padding]

/-- The whole pairs stand after the head. -/
theorem burst_getElem?_body (p : Params) (be : Bool) (P : List Byte) (d : Descriptor) {k : Nat}
    (hk : k < 2 * (P.length / 2)) :
    (burst p be P d)[headLen d.pre + k]? = (body (swapPayload p be d.xswap) P)[k]? := by
  rw [burst_eq, List.getElem?_append_right (by simp), burstHead_length, Nat.add_sub_cancel_left,
    List.getElem?_append_left (by rwa [body_length])]

/-- The trailing unit stands after the whole pairs. -/
theorem burst_getElem?_trail (p : Params) (be : Bool) (P : List Byte) (d : Descriptor) {k : Nat}
    (hk : k < 2 * (P.length % 2)) :
    (burst p be P d)[headLen d.pre + (2 * (P.length / 2) + k)]? = (trail be P)[k]? := by
  rw [burst_eq, List.getElem?_append_right (by simp), burstHead_length, Nat.add_sub_cancel_left,
    List.getElem?_append_right (by simp [body_length]), body_length, Nat.add_sub_cancel_left,
    List.getElem?_append_left (by rwa [trail_length])]

/-- The padding stands after everything else. -/
theorem burst_getElem?_padding (p : Params) (be : Bool) (P : List Byte) (d : Descriptor) (k : Nat) :
    (burst p be P d)[burstSize d.pre P.length + k]? = (padding d P.length)[k]? := by
  have hsize : (burstHead p be d ++ body (swapPayload p be d.xswap) P ++ trail be P).length =
      burstSize d.pre P.length := by
    simp only [List.length_append, burstHead_length, body_length, trail_length, burstSize_eq, ceil2]
    omega
  rw [burst_eq, ← List.append_assoc, ← List.append_assoc, ← hsize,
    List.getElem?_append_right (Nat.le_add_right _ _), Nat.add_sub_cancel_left]

theorem burst_take_preamble (p : Params) (be : Bool) (P : List Byte) {d : Descriptor} (hpre : d.pre = true) :
    (burst p be P d).take 8 = preamble p be d := by
  have hhead : burstHead p be d = preamble p be d := if_pos hpre
  rw [burst_eq, hhead, List.take_left' (preamble_length p be d)]

/-- Settles O35: the head of the burst is the preamble, whose first four bytes are the sync words. -/
theorem preambleLeadsTheBurst : Obligations.PreambleLeadsTheBurst := by
  have hsync (be : Bool) (P : List Byte) (d : Descriptor) (hpre : d.pre = true) :
      (burst defaultParams be P d).take 4 = w16 be 0xF872#16 ++ w16 be 0x4E1F#16 := by
    have htake : (burst defaultParams be P d).take 4 = ((burst defaultParams be P d).take 8).take 4 := by
      simp [List.take_take]
    rw [htake, burst_take_preamble _ _ _ hpre, preamble, List.append_assoc]
    exact List.take_left' (by simp)
  refine ⟨rfl, rfl, fun p be P d => ⟨burst_take_preamble p be P, fun hpre => ?_⟩, fun P d hpre =>
    ⟨hsync false P d hpre, hsync true P d hpre⟩⟩
  have hhead : burstHead p be d = [] := if_neg (by simp [hpre])
  rw [burst_eq, hhead]
  exact ⟨_, rfl⟩

/-- Settles O36: the pairs of the body at their place in the burst, by the value of the combined flag. -/
theorem payloadPairs : Obligations.PayloadPairs := by
  refine ⟨rfl, fun p be P d j hj => ?_⟩
  obtain ⟨hfirst, hsecond⟩ := body_pair (swapPayload p be d.xswap) P hj
  rw [← burst_getElem?_body p be P d (by omega)] at hfirst hsecond
  rw [Nat.add_assoc, hfirst, hsecond, ← swapPayload_true_iff, ← swapPayload_false_iff]
  exact ⟨fun hswap => by simp [hswap], fun hswap => by simp [hswap]⟩

/-- Settles O37: the bytes of the trailing unit at their place in the burst. -/
theorem trailingUnit : Obligations.TrailingUnit := by
  refine ⟨fun p P d b hodd hb => ?_, fun be P => trail_of_even be⟩
  have hunit (be : Bool) :
      (burst p be P d)[headLen d.pre + (P.length - 1)]? = (if be then [b, 0x00#8] else [0x00#8, b])[0]? ∧
        (burst p be P d)[headLen d.pre + P.length]? = (if be then [b, 0x00#8] else [0x00#8, b])[1]? := by
    have hfirst := burst_getElem?_trail p be P d (k := 0) (by omega)
    have hsecond := burst_getElem?_trail p be P d (k := 1) (by omega)
    rw [trail_of_odd be hodd hb, show 2 * (P.length / 2) + 0 = P.length - 1 by omega] at hfirst
    rw [trail_of_odd be hodd hb, show 2 * (P.length / 2) + 1 = P.length by omega] at hsecond
    exact ⟨hfirst, hsecond⟩
  exact ⟨hunit true, hunit false⟩

/-- Settles O39: `burst_length`, and every byte of the padding is 0. -/
theorem paddingFillsThePeriod : Obligations.PaddingFillsThePeriod := by
  intro p be P d hfits
  rw [← burstSize_eq] at hfits ⊢
  refine ⟨burst_length p be P d hfits, fun k hsize hk => ?_⟩
  obtain ⟨i, rfl⟩ := Nat.exists_eq_add_of_le hsize
  rw [burst_getElem?_padding, padding, List.getElem?_replicate_of_lt (by omega)]

/-! ### ENCAPSULATE (41_encapsulator R120)

What it answers where each of its checks is the first to fail, and where none does. -/

section
variable {s : State}

theorem exec_encapsulate_noSession (hsess : s.sess = false) :
    exec .encapsulate s = .next (record .noSession s) := by
  simp [exec, execEncapsulate, hsess, raise]

theorem exec_encapsulate_terminated (hsess : s.sess = true) (hterm : s.term = true) :
    exec .encapsulate s = .next (record .unsupportedCodec s) := by
  simp [exec, execEncapsulate, hsess, hterm, raise]

theorem exec_encapsulate_badParameter (hsess : s.sess = true) (hterm : s.term = false)
    (hbad : frameTooLong s = true ∨ frameCount s < s.desc.offset.toNat ∨ badPeriod s.desc = true) :
    exec .encapsulate s = .next (record .badParameter s) := by
  obtain hlong | hoffset | hperiod := hbad
  · simp [exec, execEncapsulate, hsess, hterm, hlong, raise]
  · simp [exec, execEncapsulate, hsess, hterm, hoffset, raise]
  · simp [exec, execEncapsulate, hsess, hterm, hperiod, raise]

/-- Past its checks ENCAPSULATE is EmitBurst of the payload under the descriptor in the `DESC_*` registers. -/
theorem exec_encapsulate_of_payload {P : List Byte} (hr : Ready s) (hoffset : s.desc.offset.toNat ≤ frameCount s)
    (hperiod : badPeriod s.desc = false) (hP : payloadBytes s = .ok P) :
    exec .encapsulate s = emitBurst P s.desc s := by
  simp [exec, execEncapsulate, hr.sess, hr.term, hr.fits, Nat.not_lt.2 hoffset, hperiod, hP]

/-- A burst that fits is offered to the SINK (41_encapsulator R128). -/
theorem emitBurst_fits {P : List Byte} {d : Descriptor} (h : burstSize d.pre P.length ≤ d.period.toNat) :
    emitBurst P d s =
      sinkOffer (burst s.params s.be P d) (growScratch (swapPayload s.params s.be d.xswap) P.length s) :=
  if_neg (Nat.not_lt.2 h)

/-- The growth of the scratch buffer has no part in what the SINK may take. -/
theorem mayAccept_growScratch {swap : Bool} {n len a : Nat} :
    mayAccept (growScratch swap n s) len a ↔ mayAccept s len a := by
  simp [mayAccept]

/-- A burst that fits is offered whole, a period long, to a SINK that answers. -/
theorem emitBurst_answered {P : List Byte} {d : Descriptor} (h : burstSize d.pre P.length ≤ d.period.toNat)
    (hanswers : s.sinkPlan.head? ≠ some .silent) :
    ∃ a, mayAccept s d.period.toNat a ∧
      emitBurst P d s = .next (afterOffer (burst s.params s.be P d) a
        (growScratch (swapPayload s.params s.be d.xswap) P.length s)) := by
  obtain ⟨a, ha, hoffer⟩ := sinkOffer_answers (burst s.params s.be P d)
    (s := growScratch (swapPayload s.params s.be d.xswap) P.length s) (by simpa using hanswers)
  rw [mayAccept_growScratch, burst_length _ _ _ _ h] at ha
  exact ⟨a, ha, by rw [emitBurst_fits h, hoffer]⟩

end

/-- Settles O38: the size check of EmitBurst, which ENCAPSULATE reaches past its own. -/
theorem oversizeIsRefused : Obligations.OversizeIsRefused := by
  refine ⟨fun P d s h => emitBurst_tooLarge h, fun s P hsess hterm hfits hoffset hzero heven hP h => ?_⟩
  have hready : Ready s := ⟨hsess, hterm, (frameTooLong_false_iff s).2 hfits⟩
  rw [exec_encapsulate_of_payload hready hoffset ((badPeriod_false_iff _).2 ⟨hzero, heven⟩) hP]
  exact emitBurst_tooLarge h

/-- Settles O41: each check by what ENCAPSULATE answers there; past them EmitBurst, whose offer the SINK answers or
not. -/
theorem encapsulateOffersOneBurst : Obligations.EncapsulateOffersOneBurst := by
  refine ⟨rfl, fun s => ⟨exec_encapsulate_noSession, exec_encapsulate_terminated, fun hsess hterm =>
    ⟨fun hbad => ?_, fun hfits hoffset hzero heven P hP => ?_⟩⟩⟩
  · rw [← badPeriod_iff, ← frameTooLong_iff] at hbad
    exact exec_encapsulate_badParameter hsess hterm hbad
  · have hready : Ready s := ⟨hsess, hterm, (frameTooLong_false_iff s).2 hfits⟩
    rw [exec_encapsulate_of_payload hready hoffset ((badPeriod_false_iff _).2 ⟨hzero, heven⟩) hP, ← burstSize_eq]
    refine ⟨(readRange_ok hP).1, emitBurst_tooLarge, fun hsize hsilent => ?_, emitBurst_answered⟩
    rw [emitBurst_fits hsize]
    exact sinkOffer_silent _ (by simpa using hsilent)

end Sys2Proof.Machine

/-! ### OPEN and CLOSE (42_session R150, R152) -/

namespace Sys2Proof.Machine

/-- OPEN fixes the configuration and starts a session where none is open. -/
theorem exec_openSession_of_closed {s : State} (be : Bool) (c : Codec) (hsess : s.sess = false) :
    exec (.openSession be c) s =
      .next (record .ok { clearSession s with sess := true, be := be, codec := c.code }) := by
  simp [exec, execOpenSession, hsess, complete]

/-- OPEN in an open session is an error and keeps that session (60_exceptions R190). -/
theorem exec_openSession_of_open {s : State} (be : Bool) (c : Codec) (hsess : s.sess = true) :
    exec (.openSession be c) s = .next (record .sessionOpen s) := by
  simp [exec, execOpenSession, hsess, raise]

/-- CLOSE is never an error. -/
theorem exec_closeSession (s : State) :
    exec .closeSession s = .next (record .ok { clearSession s with sess := false }) :=
  rfl

/-- Settles O18: the two cases of OPEN. -/
theorem openStartsASession : Obligations.OpenStartsASession :=
  fun be codec _ => ⟨rfl, rfl, exec_openSession_of_closed be codec, exec_openSession_of_open be codec⟩

/-- Settles O19: CLOSE has one outcome. -/
theorem closeEndsTheSession : Obligations.CloseEndsTheSession :=
  ⟨rfl, exec_closeSession⟩

/-! ### SUBMIT (42_session R155) -/

/-- An inspected frame is all payload: the descriptor's offset is 0 (40_inspectors R93). -/
theorem inspectAs_drop_offset {p : Params} {f : List Byte} {c : Codec} {r : Inspected}
    (h : inspectAs p f c = some r) : f.drop r.desc.offset.toNat = f := by
  obtain ⟨_, _, _, _, rfl⟩ := inspectAs_eq_inspected h
  rfl

section
variable {s : State} {f : List Byte} {r : Inspected}

/-- SUBMIT ends where the checks or the inspection it shares with INSPECT end it. -/
theorem exec_submit_of_error {o : Result} (h : inspectFrame s = .error o) : exec .submit s = o := by
  simp [exec, execSubmit, h]

/-- A frame of another profile than the one being joined is not recognized (60_exceptions R181). -/
theorem exec_submit_otherProfile (h : inspectFrame s = .ok (f, r)) (hfill : s.fill ≠ 0#8)
    (hprofile : r.profile ≠ s.accProfile) : exec .submit s = .next (record .unrecognizedFrame s) := by
  simp [exec, execSubmit, h, hfill, hprofile, raise]

/-- A frame of a fitting profile is emitted or aggregated under its own descriptor, by the number of sub-frames its
profile puts in a burst. -/
theorem exec_submit_of_ok (h : inspectFrame s = .ok (f, r)) (hprofile : s.fill = 0#8 ∨ r.profile = s.accProfile) :
    exec .submit s =
      if aggK s.params r.profile = 1 then emitBurst f r.desc (writeDesc r.desc s)
      else aggregate f r (aggK s.params r.profile) (writeDesc r.desc s) := by
  obtain ⟨-, -, -, hinspect⟩ := inspectFrame_ok h
  have hjoins : ¬(s.fill ≠ 0#8 ∧ r.profile ≠ s.accProfile) := by
    rwa [not_and_or, not_not, not_not]
  simp [exec, execSubmit, h, hjoins, inspectAs_drop_offset hinspect]

end

/-- Settles O42: each check by what `inspectFrame` answers there; past them EmitBurst or the aggregation. -/
theorem submitOffersOneBurst : Obligations.SubmitOffersOneBurst := by
  refine ⟨rfl, fun s => ⟨?_, ?_, ?_, fun hsess hterm hlt => ?_⟩⟩
  · exact fun hsess => exec_submit_of_error (inspectFrame_noSession hsess)
  · exact fun hsess hterm => exec_submit_of_error (inspectFrame_terminated hsess hterm)
  · exact fun hsess hterm hge =>
      exec_submit_of_error (inspectFrame_noInspector hsess hterm ((codecSupported_false_iff _).2 hge))
  · have hcodec := (codecSupported_iff _).2 hlt
    refine ⟨fun hlong => ?_, fun hfits f hf => ?_⟩
    · exact exec_submit_of_error (inspectFrame_frameTooLong hsess hterm hcodec ((frameTooLong_iff s).2 hlong))
    · have hready : Ready s := ⟨hsess, hterm, (frameTooLong_false_iff s).2 hfits⟩
      refine ⟨fun hnone => exec_submit_of_error (inspectFrame_unrecognized hready hcodec hf hnone), fun r hr => ?_⟩
      have hok := inspectFrame_of hready hcodec hf hr
      refine ⟨exec_submit_otherProfile hok, fun hprofile hk => ?_, fun hprofile hk => ?_⟩
      · rw [exec_submit_of_ok hok hprofile, if_pos hk, ← burstSize_eq]
        exact ⟨emitBurst_tooLarge, emitBurst_answered (s := writeDesc r.desc s)⟩
      · rw [exec_submit_of_ok hok hprofile, if_neg hk]

/-! ### A codec without an inspector ends the session for frames (42_session R156, 60_exceptions R183) -/

/-- A fetched command runs on the state without its access (10_state R23). -/
theorem step_of_fetch_command {s : State} {i : Instr} (h : fetch s = .command i) : step s = exec i (popEvent s) := by
  simp [step, h]

/-- A terminated session stays open and terminated through every step but CLOSE and reset: the other writers of the
session bits are OPEN, which an open session refuses, and the dispatch that sets `TERM`. -/
theorem step_keeps_termination {s t : State} (h : step s = .next t) (hsess : s.sess = true) (hterm : s.term = true)
    (hclose : fetch s ≠ .command .closeSession) (hreset : fetch s ≠ .access .reset) :
    t.term = true ∧ t.sess = true := by
  obtain (⟨be, c, hopen⟩ | hf | hf) | ⟨hkeepSess, hkeepTerm⟩ | ⟨-, -, -, rfl⟩ := step_sessionBits h
  · rw [step_of_fetch_command hopen, exec_openSession_of_open (s := popEvent s) be c hsess] at h
    cases h
    exact ⟨hterm, hsess⟩
  · exact absurd hf hclose
  · exact absurd hf hreset
  · exact ⟨hkeepTerm.trans hterm, hkeepSess.trans hsess⟩
  · exact ⟨rfl, hsess⟩

/-- Settles O20: what the dispatch of the frame commands answers, and `step_keeps_termination`. -/
theorem unsupportedCodecIsTerminal : Obligations.UnsupportedCodecIsTerminal := by
  refine fun s hsess => ⟨fun hterm hge => ?_, fun hterm => ?_, fun hterm t h => step_keeps_termination h hsess hterm⟩
  · have hdispatch := inspectFrame_noInspector hsess hterm ((codecSupported_false_iff _).2 hge)
    exact ⟨exec_inspect_of_error hdispatch, exec_submit_of_error hdispatch⟩
  · have hdispatch := inspectFrame_terminated hsess hterm
    exact ⟨exec_inspect_of_error hdispatch, exec_encapsulate_terminated hsess hterm, exec_submit_of_error hdispatch⟩

end Sys2Proof.Machine

/-! ### The causes of single errors (60_exceptions R181, R186, R189) -/

namespace Sys2Proof.Machine

/-- Settles O21: the first check of each frame command. -/
theorem noSessionForFrameCommands : Obligations.NoSessionForFrameCommands := fun _ hsess =>
  ⟨exec_inspect_of_error (inspectFrame_noSession hsess), exec_encapsulate_noSession hsess,
    exec_submit_of_error (inspectFrame_noSession hsess)⟩

/-- Settles O22: the length check of `inspectFrame`, and the three parameter checks of ENCAPSULATE. -/
theorem badParameterCauses : Obligations.BadParameterCauses := by
  refine fun s hsess hterm => ⟨fun hlt hlong => ?_, fun hbad => ?_⟩
  · have hframe := inspectFrame_frameTooLong hsess hterm ((codecSupported_iff _).2 hlt) ((frameTooLong_iff s).2 hlong)
    exact ⟨exec_inspect_of_error hframe, exec_submit_of_error hframe⟩
  · have hperiod : s.desc.period = 0#32 ∨ s.desc.period.toNat % 2 = 1 ↔ badPeriod s.desc = true := by
      rw [badPeriod_iff, ← BitVec.toNat_inj, BitVec.toNat_zero]
    rw [← frameTooLong_iff, hperiod] at hbad
    exact exec_encapsulate_badParameter hsess hterm hbad

/-- Settles O23: the inspector's answer, which INSPECT and SUBMIT share, and SUBMIT's comparison of profiles. -/
theorem unrecognizedFrameCauses : Obligations.UnrecognizedFrameCauses := by
  intro s f hsess hterm hlt hfits hf
  have hready : Ready s := ⟨hsess, hterm, (frameTooLong_false_iff s).2 hfits⟩
  have hcodec := (codecSupported_iff _).2 hlt
  refine ⟨fun hnone => ?_, fun r hr => exec_submit_otherProfile (inspectFrame_of hready hcodec hf hr)⟩
  have hframe := inspectFrame_unrecognized hready hcodec hf hnone
  exact ⟨exec_inspect_of_error hframe, exec_submit_of_error hframe⟩

/-! ### Which commands raise which code (60_exceptions R180) -/

/-- The commands that may record a code, and the session they need for it: the column 'raised by' of R180. -/
def RaisedBy (i : Instr) (s : State) : ErrCode → Prop
  | .ok => True
  | .unrecognizedFrame => i = .inspect ∨ i = .submit
  | .payloadTooLarge => i = .encapsulate ∨ i = .submit
  | .unsupportedCodec => i = .inspect ∨ i = .submit ∨ (i = .encapsulate ∧ s.term = true)
  | .sinkWriteFailure => i = .encapsulate ∨ i = .submit
  | .illegalCommand => False
  | .noSession => frameCommand i = true ∧ s.sess = false
  | .sessionOpen => (∃ be c, i = .openSession be c) ∧ s.sess = true
  | .badParameter => frameCommand i = true

/-- The commands that make an offer may record what an offer reports. -/
theorem sinkOffer_raisedBy {i : Instr} {bytes : List Byte} {s u t : State} (hi : i = .encapsulate ∨ i = .submit)
    (h : sinkOffer bytes u = .next t) : RaisedBy i s t.err := by
  obtain ⟨a, -, -, rfl⟩ := sinkOffer_next h
  obtain he | he := afterOffer_err_cases bytes a u
  · rw [he]
    trivial
  · rw [he]
    exact hi

/-- A terminated session answers every frame command with `UNSUPPORTED_CODEC` (60_exceptions R183). -/
theorem unsupportedCodec_raisedBy {i : Instr} {s : State} (hi : frameCommand i = true) (hterm : s.term = true) :
    RaisedBy i s .unsupportedCodec := by
  cases i with
  | openSession | closeSession => cases hi
  | inspect => exact .inl rfl
  | encapsulate => exact .inr (.inr ⟨rfl, hterm⟩)
  | submit => exact .inr (.inl rfl)

/-- A command records no code but those it may raise. -/
theorem exec_raisedBy {i : Instr} {s t : State} (h : exec i s = .next t) : RaisedBy i s t.err := by
  have hends := exec_ends i s
  rw [h] at hends
  generalize hr : (Host.Outcome.next t : Result) = o at hends
  cases hends with
  | encapsulated => exact sinkOffer_raisedBy (.inl rfl) hr.symm
  | submitted | flushed => exact sinkOffer_raisedBy (.inr rfl) hr.symm
  | unwritten => cases hr
  | opened | closed | inspected | accumulated => cases hr; trivial
  | sessionOpen be c hsess => cases hr; exact ⟨⟨be, c, rfl⟩, hsess⟩
  | noSession _ hi hsess => cases hr; exact ⟨hi, hsess⟩
  | terminated _ hi _ hterm => cases hr; exact unsupportedCodec_raisedBy hi hterm
  | noInspector _ hi => cases hr; exact hi.imp_right .inl
  | frameTooLong _ hi => cases hr; exact hi
  | badDescriptor => cases hr; rfl
  | unrecognized _ _ hi => cases hr; exact hi
  | otherProfile => cases hr; exact .inr rfl
  | tooLarge => cases hr; exact .inl rfl
  | submitTooLarge | subframeTooLarge => cases hr; exact .inr rfl

/-- Settles O8: the numbers by evaluation, the illegal words by their step, the commands by `exec_raisedBy`. -/
theorem resultCodesAndTheirCommands : Obligations.ResultCodesAndTheirCommands := by
  refine ⟨rfl, rfl, rfl, rfl, rfl, rfl, rfl, rfl, rfl, fun e => ?_, fun s rest w why hw => ?_, fun i s t h => ?_⟩
  · cases e <;> decide
  · exact ⟨_, step_cmdWord_error hw s rest, rfl⟩
  · have hcode (e : ErrCode) (he : t.err = e) : RaisedBy i s e := he ▸ exec_raisedBy h
    exact ⟨hcode .unrecognizedFrame, hcode .payloadTooLarge, hcode .unsupportedCodec, hcode .sinkWriteFailure,
      hcode .illegalCommand, hcode .noSession, hcode .sessionOpen, hcode .badParameter⟩

/-! ### What an error leaves unchanged (60_exceptions R188) -/

/-- A command that ends in an error without an offer changes nothing but the record of it, `TERM` where a dispatch finds
no inspector, and `DESC_*` where SUBMIT finds the burst too large. -/
theorem exec_error_cases {i : Instr} {s t : State} (h : exec i s = .next t) (hok : t.err ≠ .ok)
    (hsink : t.err ≠ .sinkWriteFailure) :
    (∃ e, t = record e s) ∨
    ((i = .inspect ∨ i = .submit) ∧ t = record .unsupportedCodec { s with term := true }) ∨
    (i = .submit ∧ ∃ d, t = record .payloadTooLarge (writeDesc d s)) := by
  have hends := exec_ends i s
  rw [h] at hends
  generalize hr : (Host.Outcome.next t : Result) = o at hends
  cases hends with
  | encapsulated | submitted | flushed =>
    obtain ⟨a, -, -, rfl⟩ := sinkOffer_next hr.symm
    exact ((afterOffer_err_cases _ a _).elim hok hsink).elim
  | unwritten => cases hr
  | opened | closed | inspected | accumulated => cases hr; exact absurd rfl hok
  | noInspector _ hi => cases hr; exact .inr (.inl ⟨hi, rfl⟩)
  | submitTooLarge | subframeTooLarge => cases hr; exact .inr (.inr ⟨rfl, _, rfl⟩)
  | _ => cases hr; exact .inl ⟨_, rfl⟩

/-- Settles O25: a command that ends has the shape of `exec_next_shape`; in an error, that of `exec_error_cases`. -/
theorem errorsArePrecise : Obligations.ErrorsArePrecise := by
  refine ⟨fun i s t h => ?_, fun i s t h hok hsink => ?_⟩
  · obtain ⟨e, u, rfl, -, hkeeps⟩ | ⟨bytes, a, u, rfl, ha, -, hkeeps, -⟩ := exec_next_shape h
    · exact .inl ⟨hkeeps.stream, hkeeps.sinkPlan, hkeeps.draws, rfl, rfl⟩
    · exact .inr ⟨bytes, a, u, rfl, ha, hkeeps.stream, hkeeps.sinkPlan, hkeeps.draws⟩
  · obtain ⟨e, rfl⟩ | ⟨hi, rfl⟩ | ⟨rfl, d, rfl⟩ := exec_error_cases h hok hsink
    · exact ⟨rfl, rfl, rfl, absurd rfl, absurd rfl⟩
    · exact ⟨rfl, rfl, rfl, absurd rfl, fun _ => ⟨hi, rfl, rfl⟩⟩
    · exact ⟨rfl, rfl, rfl, fun _ => ⟨rfl, rfl⟩, absurd rfl⟩

/-! ### The order in which errors are found (60_exceptions R187)

The last checks, size and the SINK's answer, are made by EmitBurst and by the aggregation; the first, up to the
inspector, by `inspectFrame`. -/

/-- A command that ends in a record ends in the code recorded. -/
theorem err_of_record {o : Result} {e : ErrCode} {u t : State} (ho : o = .next (record e u)) (h : o = .next t) :
    t.err = e := by
  cases ho.symm.trans h
  rfl

/-- The code of a command past its earlier checks, by whether its burst is too large and, where it is not, by the
lengths that the state it ends in reports. -/
def burstErr (tooLarge : Prop) [Decidable tooLarge] (t : State) : ErrCode :=
  if tooLarge then .payloadTooLarge
  else if t.sinkAccepted.toNat < t.burstLen.toNat then .sinkWriteFailure
  else .ok

/-- A command that offered nothing has no short answer to report. -/
theorem burstErr_record_ok {tooLarge : Prop} [Decidable tooLarge] (hfits : ¬tooLarge) (u : State) :
    burstErr tooLarge (record .ok u) = .ok := by
  simp [burstErr, hfits]

/-- The reported lengths of an offer show whether the answer was short: a burst is shorter than the registers' range. -/
theorem sinkOffer_err {bytes : List Byte} {s t : State} (hlen : bytes.length < 2 ^ 32)
    (h : sinkOffer bytes s = .next t) :
    t.err = if t.sinkAccepted.toNat < t.burstLen.toNat then .sinkWriteFailure else .ok := by
  obtain ⟨a, ⟨ha, -⟩, -, rfl⟩ := sinkOffer_next h
  rw [afterOffer_err, afterOffer_sinkAccepted, afterOffer_burstLen, BitVec.toNat_ofNat, BitVec.toNat_ofNat,
    Nat.mod_eq_of_lt hlen, Nat.mod_eq_of_lt (ha.trans_lt hlen)]

/-- The code of EmitBurst. -/
theorem emitBurst_err {P : List Byte} {d : Descriptor} {s t : State} (h : emitBurst P d s = .next t) :
    t.err = burstErr (d.period.toNat < headLen d.pre + ceil2 P.length) t := by
  rw [burstErr, ← burstSize_eq]
  obtain ⟨hlarge, he⟩ | ⟨hfits, he⟩ := emitBurst_cases P d s
  · rw [if_pos hlarge]
    exact err_of_record he h
  · rw [if_neg (Nat.not_lt.2 hfits)]
    have hlen := burst_length s.params s.be P d hfits
    exact sinkOffer_err (hlen ▸ d.period.isLt) (he.symm.trans h)

/-- The code of the aggregation: the sub-frames held count towards the size. -/
theorem aggregate_err {P : List Byte} {r : Inspected} {k : Nat} {s t : State} (h : aggregate P r k s = .next t) :
    t.err = burstErr (r.desc.period.toNat < headLen r.desc.pre + ceil2 (s.acc.length + P.length)) t := by
  unfold aggregate at h
  split at h
  next hlarge =>
    cases h
    exact (if_pos hlarge).symm
  next hfits =>
    dsimp only at h
    split at h
    next =>
      cases h
      exact (burstErr_record_ok hfits _).symm
    next => simpa using emitBurst_err h

/-- The code of SUBMIT for a frame its inspector accepts. -/
def submitErr (s t : State) (r : Inspected) : ErrCode :=
  if s.fill ≠ 0#8 ∧ r.profile ≠ s.accProfile then .unrecognizedFrame
  else
    burstErr (r.desc.period.toNat < headLen r.desc.pre +
      ceil2 ((if aggK s.params r.profile = 1 then 0 else s.acc.length) + s.frameLen.toNat)) t

theorem exec_submit_err_of_ok {f : List Byte} {r : Inspected} {s t : State} (hok : inspectFrame s = .ok (f, r))
    (h : exec .submit s = .next t) : t.err = submitErr s t r := by
  obtain ⟨-, -, hf, -⟩ := inspectFrame_ok hok
  have hlen : f.length = s.frameLen.toNat := (readRange_ok hf).1
  unfold submitErr
  split
  next hother =>
    obtain ⟨hfill, hprofile⟩ := hother
    exact err_of_record (exec_submit_otherProfile hok hfill hprofile) h
  next hjoins =>
    rw [exec_submit_of_ok hok (by rwa [not_and_or, not_not, not_not] at hjoins)] at h
    by_cases hk : aggK s.params r.profile = 1
    · rw [if_pos hk] at h
      simpa [hk, hlen] using emitBurst_err h
    · rw [if_neg hk] at h
      simpa [hk, hlen] using aggregate_err h

/-- What the session's inspector finds in the frame: nothing where it rejects it, or where a byte is unwritten. -/
def inspection (s : State) : Option Inspected :=
  (frameBytes s).toOption.bind fun f => inspectAs s.params f (Codec.ofCode s.codec)

/-- The checks INSPECT and SUBMIT share, in the order of R187, and what follows them on an accepted frame. -/
def inspectionErr (s : State) (accepted : Inspected → ErrCode) : ErrCode :=
  if s.sess = false then .noSession
  else if s.term = true then .unsupportedCodec
  else if 3 ≤ s.codec.toNat then .unsupportedCodec
  else if s.params.frameBufBytes < s.frameLen.toNat then .badParameter
  else
    match inspection s with
    | none => .unrecognizedFrame
    | some r => accepted r

/-- Past the checks before the inspector, the inspection decides. -/
theorem inspectionErr_of_ready {s : State} (hr : Ready s) (hcodec : codecSupported s.codec = true)
    (accepted : Inspected → ErrCode) :
    inspectionErr s accepted = ((inspection s).map accepted).getD .unrecognizedFrame := by
  have hlt := (codecSupported_iff _).1 hcodec
  have hfits := (frameTooLong_false_iff s).1 hr.fits
  simp only [inspectionErr, hr.sess, hr.term, Nat.not_le.2 hlt, Nat.not_lt.2 hfits, if_false, Bool.true_eq_false,
    Bool.false_eq_true]
  cases inspection s <;> rfl

/-- Where inspection hands nothing on, the code is that of the first check that fails. -/
theorem inspectFrame_error_err {s t : State} (h : inspectFrame s = .error (.next t)) (accepted : Inspected → ErrCode) :
    t.err = inspectionErr s accepted := by
  cases inspectFrame_error (i := .inspect) (.inl rfl) h with
  | noSession _ _ hsess => simp [inspectionErr, hsess]
  | terminated _ _ hsess hterm => simp [inspectionErr, hsess, hterm]
  | noInspector _ _ hsess hterm hcodec => simp [inspectionErr, hsess, hterm, (codecSupported_false_iff _).1 hcodec]
  | frameTooLong _ _ hsess hterm hlong hcodec =>
    have hlt := (codecSupported_iff _).1 (hcodec.resolve_left (by decide))
    simp [inspectionErr, hsess, hterm, hlt, (frameTooLong_iff s).1 hlong]
  | unrecognized _ f _ hr hcodec hf hnone =>
    simp [inspectionErr_of_ready hr hcodec, inspection, hf, hnone, Except.toOption]
  | inspected f r hok => simp [h] at hok

/-- Where inspection hands a frame on, the code is the one that follows it. -/
theorem inspectionErr_of_ok {f : List Byte} {r : Inspected} {s : State} (hok : inspectFrame s = .ok (f, r))
    (accepted : Inspected → ErrCode) : inspectionErr s accepted = accepted r := by
  obtain ⟨hr, hcodec, hf, hinspect⟩ := inspectFrame_ok hok
  simp [inspectionErr_of_ready hr hcodec, inspection, hf, hinspect, Except.toOption]

/-- The code of INSPECT. -/
theorem exec_inspect_err {s t : State} (h : exec .inspect s = .next t) : t.err = inspectionErr s fun _ => .ok := by
  cases hframe : inspectFrame s with
  | error o =>
    rw [exec_inspect_of_error hframe] at h
    exact inspectFrame_error_err (h ▸ hframe) _
  | ok x =>
    rw [inspectionErr_of_ok hframe]
    exact err_of_record (exec_inspect_of_ok hframe) h

/-- The code of SUBMIT. -/
theorem exec_submit_err {s t : State} (h : exec .submit s = .next t) : t.err = inspectionErr s (submitErr s t) := by
  cases hframe : inspectFrame s with
  | error o =>
    rw [exec_submit_of_error hframe] at h
    exact inspectFrame_error_err (h ▸ hframe) _
  | ok x => rw [exec_submit_err_of_ok hframe h, inspectionErr_of_ok hframe]

/-- ENCAPSULATE faults where its payload does (10_state R32). -/
theorem exec_encapsulate_of_unwritten {s : State} {f : Fault} (hr : Ready s)
    (hoffset : s.desc.offset.toNat ≤ frameCount s) (hperiod : badPeriod s.desc = false)
    (hP : payloadBytes s = .error f) : exec .encapsulate s = .fault f := by
  simp [exec, execEncapsulate, hr.sess, hr.term, hr.fits, Nat.not_lt.2 hoffset, hperiod, hP]

/-- The code of ENCAPSULATE past its own checks. -/
theorem exec_encapsulate_err_of_ready {s t : State} (hr : Ready s) (hoffset : s.desc.offset.toNat ≤ frameCount s)
    (hperiod : badPeriod s.desc = false) (h : exec .encapsulate s = .next t) :
    t.err = burstErr (s.desc.period.toNat <
      headLen s.desc.pre + ceil2 (s.frameLen.toNat - s.desc.offset.toNat)) t := by
  cases hP : payloadBytes s with
  | error f =>
    rw [exec_encapsulate_of_unwritten hr hoffset hperiod hP] at h
    cases h
  | ok P =>
    rw [exec_encapsulate_of_payload hr hoffset hperiod hP] at h
    have hlen : P.length = s.frameLen.toNat - s.desc.offset.toNat := (readRange_ok hP).1
    exact hlen ▸ emitBurst_err h

/-- The code of ENCAPSULATE. -/
theorem exec_encapsulate_err {s t : State} (h : exec .encapsulate s = .next t) :
    t.err =
      if s.sess = false then .noSession
      else if s.term = true then .unsupportedCodec
      else if s.params.frameBufBytes < s.frameLen.toNat then .badParameter
      else if s.frameLen.toNat < s.desc.offset.toNat then .badParameter
      else if s.desc.period.toNat = 0 ∨ s.desc.period.toNat % 2 = 1 then .badParameter
      else burstErr (s.desc.period.toNat <
        headLen s.desc.pre + ceil2 (s.frameLen.toNat - s.desc.offset.toNat)) t := by
  have hbad (hsess : s.sess = true) (hterm : s.term = false)
      (hcause : frameTooLong s = true ∨ frameCount s < s.desc.offset.toNat ∨ badPeriod s.desc = true) :
      t.err = .badParameter := err_of_record (exec_encapsulate_badParameter hsess hterm hcause) h
  simp only [← frameTooLong_iff, ← badPeriod_iff]
  split_ifs with hsess hterm hlong hoffset hperiod
  · exact err_of_record (exec_encapsulate_noSession hsess) h
  · exact err_of_record (exec_encapsulate_terminated (by simpa using hsess) hterm) h
  · exact hbad (by simpa using hsess) (by simpa using hterm) (.inl hlong)
  · exact hbad (by simpa using hsess) (by simpa using hterm) (.inr (.inl hoffset))
  · exact hbad (by simpa using hsess) (by simpa using hterm) (.inr (.inr hperiod))
  · have hready : Ready s := ⟨by simpa using hsess, by simpa using hterm, by simpa using hlong⟩
    exact exec_encapsulate_err_of_ready hready (Nat.not_lt.1 hoffset) (by simpa using hperiod) h

/-- Settles O24: the chain of each command. -/
theorem errorPriority : Obligations.ErrorPriority := by
  refine ⟨fun s t rest w why hw h => ?_, fun s t be c h => ?_, fun s t h => ?_, fun s t h => ?_, fun s t h => ?_,
    fun s t h => ?_⟩
  · exact err_of_record (step_cmdWord_error hw s rest) h
  · cases hsess : s.sess with
    | false => exact err_of_record (exec_openSession_of_closed be c hsess) h
    | true => exact err_of_record (exec_openSession_of_open be c hsess) h
  · exact err_of_record (exec_closeSession s) h
  · rw [exec_inspect_err h, inspectionErr, inspection]
    cases (frameBytes s).toOption.bind _ <;> rfl
  · exact exec_encapsulate_err h
  · exact exec_submit_err h

end Sys2Proof.Machine

/-! ### Command words and commands, there and back (30_encoding R72 to R76) -/

namespace Sys2Proof

/-- A codec code names a well-formed codec with that code (10_state R25). -/
theorem Codec.ofCode_spec (k : BitVec 3) : (Codec.ofCode k).wellFormed = true ∧ (Codec.ofCode k).code = k := by
  revert k
  decide

/-- A well-formed codec is the one its code names: the codes of `unsupported` are none of the three supported ones. -/
theorem Codec.ofCode_code {c : Codec} (h : c.wellFormed = true) : Codec.ofCode c.code = c := by
  cases c with
  | ac3 | dts | adtsAac => rfl
  | unsupported k =>
    have hk : ∀ k : BitVec 3, 3 ≤ k.toNat → Codec.ofCode k = .unsupported k := by decide
    exact hk k (of_decide_eq_true h)

/-- The word of an OPEN carries its operands in bits 8 and 11:9 (30_encoding R72). -/
theorem encode_openSession_operands (be : Bool) (c : Codec) :
    (encode (.openSession be c)).getLsbD 8 = be ∧ (encode (.openSession be c)).extractLsb' 9 3 = c.code := by
  simp only [encode]
  generalize c.code = k
  revert be k
  decide

/-- A word of the form of OPEN decodes to an OPEN with its operand bits (30_encoding R73). -/
theorem decode_openWord {w : Word} (h : w &&& 0xFFFFF0FF#32 = 0x00000001#32) :
    decode w = .ok (.openSession (w.getLsbD 8) (Codec.ofCode (w.extractLsb' 9 3))) :=
  if_pos h

/-- Two words of the form of OPEN are equal when their operand bits are. -/
theorem openWord_ext {w v : Word} (hw : w &&& 0xFFFFF0FF#32 = 0x00000001#32)
    (hv : v &&& 0xFFFFF0FF#32 = 0x00000001#32) (hbe : w.getLsbD 8 = v.getLsbD 8)
    (hcodec : w.extractLsb' 9 3 = v.extractLsb' 9 3) : w = v := by
  obtain ⟨hop, hlow, hhigh⟩ := Machine.openWord_iff_fields.1 hw
  obtain ⟨hop', hlow', hhigh'⟩ := Machine.openWord_iff_fields.1 hv
  have hbit : w.extractLsb' 8 1 = v.extractLsb' 8 1 := by
    apply BitVec.eq_of_getLsbD_eq
    intro i hi
    obtain rfl : i = 0 := by omega
    simpa using hbe
  rw [Machine.word_eq_iff_fields, Machine.extractLsb'_add_eq_iff (start := 4) (m := 4) (n := 24),
    Machine.extractLsb'_add_eq_iff (start := 8) (m := 1) (n := 23),
    Machine.extractLsb'_add_eq_iff (start := 9) (m := 3) (n := 20)]
  exact ⟨hop.trans hop'.symm, hlow.trans hlow'.symm, hbit, hcodec, hhigh.trans hhigh'.symm⟩

/-- Settles O1: OPEN by its row of the opcode table and its operand bits, the constant words by evaluation. -/
theorem decodeOfEncode : Obligations.DecodeOfEncode := by
  intro i hi
  cases i with
  | openSession be c =>
    obtain ⟨hbe, hcode⟩ := encode_openSession_operands be c
    rw [decode_openWord (Laws.EncodedFields.openSession be c), hbe, hcode, Codec.ofCode_code hi]
  | closeSession | inspect | encapsulate | submit => rfl

/-- Settles O2: a word of the form of OPEN has the row and the operand bits of the command it decodes to; every other
word that decodes is one of the four constants. -/
theorem encodeOfDecode : Obligations.EncodeOfDecode := by
  intro w i h
  by_cases hopen : w &&& 0xFFFFF0FF#32 = 0x00000001#32
  · cases (decode_openWord hopen).symm.trans h
    obtain ⟨hwf, hcode⟩ := Codec.ofCode_spec (w.extractLsb' 9 3)
    obtain ⟨hbe, hcodec⟩ := encode_openSession_operands (w.getLsbD 8) (Codec.ofCode (w.extractLsb' 9 3))
    exact ⟨hwf, openWord_ext (Laws.EncodedFields.openSession _ _) hopen hbe (hcodec.trans hcode)⟩
  · unfold decode at h
    rw [if_neg hopen] at h
    split_ifs at h with hw hw hw hw
    all_goals
      cases h
      exact ⟨rfl, hw.symm⟩

/-- Settles O4, by evaluation. -/
theorem decodeKnownWords : Obligations.DecodeKnownWords :=
  ⟨rfl, rfl, rfl, rfl, rfl, rfl, rfl, rfl⟩

end Sys2Proof

/-! ### The invariant (Safety.lean) -/

namespace Sys2Proof.Machine

/-- `AGG_K` of every profile lies in 1 to 255 (42_session R157). -/
theorem aggK_range {p : Params} (h : paramsWf p) (pr : Profile) : 1 ≤ aggK p pr ∧ aggK p pr ≤ 255 := by
  obtain ⟨-, hac3, hdtsI, hdtsII, hdtsIII, haac1, haac2, haac4⟩ := h
  cases pr
  case ac3 => exact hac3
  case dtsI => exact hdtsI
  case dtsII => exact hdtsII
  case dtsIII => exact hdtsIII
  case aac1 => exact haac1
  case aac2 => exact haac2
  case aac4 => exact haac4

/-- The invariant without what it says of the report of the last offer, which every command writes anew. -/
structure SessionInv (s : State) : Prop where
  params : paramsWf s.params
  fb_wf : Memory.wf s.fb
  fb_range : ∀ c ∈ s.fb, c.1 < s.params.frameBufBytes
  agg_fill : s.agg = .empty ↔ s.fill = 0#8
  closed : s.sess = false → s.term = false ∧ s.agg = .empty ∧ s.fill = 0#8 ∧ s.scratchCap = 0
  acc_fill : s.fill = 0#8 → s.acc = []
  fill_lt : s.fill ≠ 0#8 → s.fill.toNat < aggK s.params s.accProfile

theorem StateInv.session {s : State} (h : StateInv s) : SessionInv s :=
  ⟨h.params, h.fb_wf, h.fb_range, h.agg_fill, h.closed, h.acc_fill, h.fill_lt⟩

/-- A command that offers nothing reports no failure of the SINK. -/
theorem SessionInv.record {u : State} {e : ErrCode} (h : SessionInv u) (he : e ≠ .sinkWriteFailure) :
    StateInv (record e u) where
  params := h.params
  fb_wf := h.fb_wf
  fb_range := h.fb_range
  agg_fill := h.agg_fill
  closed := h.closed
  acc_fill := h.acc_fill
  fill_lt := h.fill_lt
  accepted := Nat.le_refl _
  failure := by simp [he]

/-- An offer whose length the registers can hold is reported as it went. -/
theorem SessionInv.afterOffer {u : State} {bytes : List Byte} {a : Nat} (h : SessionInv u)
    (hlen : bytes.length < 2 ^ 32) (ha : a ≤ bytes.length) : StateInv (afterOffer bytes a u) where
  params := h.params
  fb_wf := h.fb_wf
  fb_range := h.fb_range
  agg_fill := h.agg_fill
  closed := h.closed
  acc_fill := h.acc_fill
  fill_lt := h.fill_lt
  accepted := by
    simp only [afterOffer_sinkAccepted, afterOffer_burstLen, BitVec.toNat_ofNat, Nat.mod_eq_of_lt hlen,
      Nat.mod_eq_of_lt (ha.trans_lt hlen), ha]
  failure := by
    simp only [afterOffer_err, afterOffer_sinkAccepted, afterOffer_burstLen, BitVec.toNat_ofNat,
      Nat.mod_eq_of_lt hlen, Nat.mod_eq_of_lt (ha.trans_lt hlen)]
    split <;> simp [*]

/-- `SCRATCH_CAP` after a burst of `n` payload bytes (41_encapsulator R129). -/
def grownCap (swap : Bool) (n cap : Nat) : Nat := if swap = true ∧ 2 ≤ n ∧ cap < n then n else cap

/-- Growing the scratch buffer changes `SCRATCH_CAP` alone. -/
theorem growScratch_eq (swap : Bool) (n : Nat) (s : State) :
    growScratch swap n s = { s with scratchCap := grownCap swap n s.scratchCap } := by
  unfold growScratch grownCap
  split <;> rfl

/-- Growing the scratch buffer of an open session keeps the invariant. -/
theorem SessionInv.growScratch {u : State} (h : SessionInv u) (hsess : u.sess = true) (swap : Bool) (n : Nat) :
    SessionInv (growScratch swap n u) := by
  rw [growScratch_eq]
  exact ⟨h.params, h.fb_wf, h.fb_range, h.agg_fill, by simp [hsess], h.acc_fill, h.fill_lt⟩

/-- A burst that fits its period is offered and reported within the invariant. -/
theorem SessionInv.sinkOffer_burst {u t : State} {p : Params} {be swap : Bool} {P : List Byte} {d : Descriptor} {n : Nat}
    (h : SessionInv u) (hsess : u.sess = true) (hfits : burstSize d.pre P.length ≤ d.period.toNat)
    (ht : sinkOffer (burst p be P d) (Machine.growScratch swap n u) = .next t) : StateInv t := by
  obtain ⟨a, ⟨ha, -⟩, -, rfl⟩ := sinkOffer_next ht
  have hlen : (burst p be P d).length < 2 ^ 32 := burst_length p be P d hfits ▸ d.period.isLt
  exact (h.growScratch hsess swap n).afterOffer hlen ha

theorem SessionInv.writeDesc {s : State} (h : SessionInv s) (d : Descriptor) : SessionInv (writeDesc d s) := by
  obtain ⟨hparams, hwf, hrange, hagg, hclosed, hacc, hfill⟩ := h
  exact ⟨hparams, hwf, hrange, hagg, hclosed, hacc, hfill⟩

/-- With its accumulation emptied a state has nothing being joined, whatever `ACC_PROFILE` holds. -/
theorem SessionInv.flush {s : State} (h : SessionInv s) (P : List Byte) (pr : Profile) :
    SessionInv (emptyAccumulator (appendSubframe P pr s)) := by
  obtain ⟨hparams, hwf, hrange, -, hclosed, -, -⟩ := h
  refine ⟨hparams, hwf, hrange, by simp, fun hsess => ?_, by simp, by simp⟩
  obtain ⟨hterm, -, -, hcap⟩ := hclosed hsess
  exact ⟨hterm, rfl, rfl, hcap⟩

/-- `FILL` stays below 255 (42_session R157), so joining a sub-frame does not wrap it. -/
theorem SessionInv.fill_add_one {s : State} (h : SessionInv s) : (s.fill + 1#8).toNat = s.fill.toNat + 1 := by
  by_cases hzero : s.fill = 0#8
  · simp [hzero]
  · have hlt := h.fill_lt hzero
    have hmax := (aggK_range h.params s.accProfile).2
    rw [BitVec.toNat_add, BitVec.toNat_ofNat]
    omega

/-- A sub-frame that leaves `FILL` below `AGG_K` is joined within the invariant. -/
theorem SessionInv.join {s : State} (h : SessionInv s) (hsess : s.sess = true) (P : List Byte) {pr : Profile}
    (hlt : (s.fill + 1#8).toNat < aggK s.params pr) :
    SessionInv { appendSubframe P pr s with agg := .accumulating } := by
  have hne : s.fill + 1#8 ≠ 0#8 := by
    intro hzero
    have := h.fill_add_one
    simp [hzero] at this
  obtain ⟨hparams, hwf, hrange, -, -, -, -⟩ := h
  refine ⟨hparams, hwf, hrange, by simp [hne], ?_, fun hzero => absurd hzero hne, fun _ => hlt⟩
  simp [hsess]

/-- Opening or closing a session leaves no termination, no aggregation and no buffer. -/
theorem SessionInv.clearSession {s : State} (h : SessionInv s) (sess be : Bool) (codec : BitVec 3) :
    SessionInv { clearSession s with sess := sess, be := be, codec := codec } :=
  ⟨h.params, h.fb_wf, h.fb_range, by simp, fun _ => ⟨rfl, rfl, rfl, rfl⟩, fun _ => rfl, by simp⟩

/-- The dispatch of a codec without an inspector terminates an open session within the invariant. -/
theorem SessionInv.terminate {s : State} (h : SessionInv s) (hsess : s.sess = true) :
    SessionInv { s with term := true } :=
  ⟨h.params, h.fb_wf, h.fb_range, h.agg_fill, by simp [hsess], h.acc_fill, h.fill_lt⟩

/-- Every command ends within the invariant. -/
theorem SessionInv.exec {i : Instr} {s t : State} (h : SessionInv s) (ht : exec i s = .next t) : StateInv t := by
  have hends := exec_ends i s
  rw [ht] at hends
  generalize hr : (Host.Outcome.next t : Result) = o at hends
  cases hends with
  | opened be c => cases hr; exact (h.clearSession true be c.code).record (by decide)
  | closed => cases hr; exact (h.clearSession false s.be s.codec).record (by decide)
  | noInspector _ _ hsess => cases hr; exact (h.terminate hsess).record (by decide)
  | unwritten => cases hr
  | inspected _ r => cases hr; exact (h.writeDesc r.desc).record (by decide)
  | submitTooLarge _ r | subframeTooLarge _ r => cases hr; exact (h.writeDesc r.desc).record (by decide)
  | accumulated f r hok _ _ _ hlt =>
    cases hr
    have hsess := (inspectFrame_ok hok).1.sess
    exact ((h.writeDesc r.desc).join hsess _ hlt).record (by decide)
  | encapsulated P hready _ _ _ hfits => exact h.sinkOffer_burst hready.sess hfits hr.symm
  | submitted f r hok _ _ hfits =>
    have hsess := (inspectFrame_ok hok).1.sess
    exact (h.writeDesc r.desc).sinkOffer_burst hsess hfits hr.symm
  | flushed f r hok _ _ hfits =>
    have hsess := (inspectFrame_ok hok).1.sess
    exact ((h.writeDesc r.desc).flush _ r.profile).sinkOffer_burst hsess (by simpa using hfits) hr.symm
  | _ => cases hr; exact h.record (by simp)

/-- A reset meets the invariant where the parameters do. -/
theorem stateInv_applyReset {s : State} (h : paramsWf s.params) : StateInv (applyReset s) where
  params := h
  fb_wf := reset_fb_wf
  fb_range := fun _ hc => absurd hc List.not_mem_nil
  agg_fill := ⟨fun _ => rfl, fun _ => rfl⟩
  closed := fun _ => ⟨rfl, rfl, rfl, rfl⟩
  acc_fill := fun _ => rfl
  fill_lt := absurd rfl
  accepted := Nat.le_refl _
  failure := by simp [State.reset]

/-- The accesses that start no command keep the invariant: of what it speaks of they change the frame buffer alone, by a
write inside its capacity. -/
theorem StateInv.hostAccess {e : HostEvent} {s t : State} (h : StateInv s) (ht : hostAccess e s = .next t) :
    StateInv t := by
  obtain ⟨-, rfl⟩ | ⟨m, d, len, rd, n, rfl, hm⟩ := hostAccess_next ht
  · exact stateInv_applyReset h.params
  · have hfb : Memory.wf m ∧ ∀ c ∈ m, c.1 < s.params.frameBufBytes := by
      obtain rfl | ⟨i, b, hi, rfl⟩ := hm
      · exact ⟨h.fb_wf, h.fb_range⟩
      · refine ⟨memWrite_wf h.fb_wf i b, fun c hc => ?_⟩
        obtain rfl | hc := mem_memWrite hc
        · exact hi
        · exact h.fb_range c hc
    exact ⟨h.params, hfb.1, hfb.2, h.agg_fill, h.closed, h.acc_fill, h.fill_lt, h.accepted, h.failure⟩

/-- Taking an access from the queue changes nothing the invariant speaks of. -/
theorem StateInv.popEvent {s : State} (h : StateInv s) : StateInv (popEvent s) := by
  obtain ⟨hparams, hwf, hrange, hagg, hclosed, hacc, hfill, haccepted, hfailure⟩ := h
  exact ⟨hparams, hwf, hrange, hagg, hclosed, hacc, hfill, haccepted, hfailure⟩

/-- Settles O52: by what the step fetched, on the state without the access performed. -/
theorem stepKeepsInv : Obligations.StepKeepsInv := by
  intro s t h ht
  obtain ⟨-, rfl⟩ | ⟨e, -, ha⟩ | ⟨i, -, hx⟩ | ⟨why, -, rfl⟩ := step_next_cases ht
  · exact h
  · exact h.popEvent.hostAccess ha
  · exact h.popEvent.session.exec hx
  · exact h.popEvent.session.record (by decide)

/-- Settles O53: the reset state is what a reset makes of itself, under the default parameters. -/
theorem resetMeetsInv : Obligations.ResetMeetsInv :=
  stateInv_applyReset (s := State.reset) (by decide)

end Sys2Proof.Machine

/-! ### What the commands and the HOST's accesses leave unchanged -/

namespace Sys2Proof.Machine

/-! #### OPEN and CLOSE (42_session section 1) -/

/-- CLOSE ends in one state, OPEN in one of two: the session's own fields are cleared, or nothing but the report
changes. -/
theorem exec_openClose_next {i : Instr} {s t : State} (hi : i = .closeSession ∨ ∃ be c, i = .openSession be c)
    (h : exec i s = .next t) :
    t = record .sessionOpen s ∧ i ≠ .closeSession ∨
    ∃ sess be codec, t = record .ok { clearSession s with sess := sess, be := be, codec := codec } ∧
      (i = .closeSession → be = s.be ∧ codec = s.codec) := by
  obtain rfl | ⟨be, c, rfl⟩ := hi
  · cases (exec_closeSession s).symm.trans h
    exact .inr ⟨false, s.be, s.codec, rfl, fun _ => ⟨rfl, rfl⟩⟩
  · cases hsess : s.sess with
    | false =>
      cases (exec_openSession_of_closed be c hsess).symm.trans h
      exact .inr ⟨true, be, c.code, rfl, nofun⟩
    | true =>
      cases (exec_openSession_of_open be c hsess).symm.trans h
      exact .inl ⟨rfl, nofun⟩

/-- Settles O55: field by field in the states of `exec_openClose_next`. -/
theorem frameOfOpenAndClose : Obligations.FrameOfOpenAndClose := by
  intro i s t hi h
  obtain ⟨rfl, hne⟩ | ⟨sess, be, codec, rfl, hcfg⟩ := exec_openClose_next hi h
  · simp [hne]
  · simpa using hcfg

/-! #### INSPECT (40_inspectors section 1) -/

/-- INSPECT ends in an error, which a dispatch without an inspector makes terminal, or loads a descriptor. -/
theorem exec_inspect_next {s t : State} (h : exec .inspect s = .next t) :
    (∃ e, t = record e s) ∨ t = record .unsupportedCodec { s with term := true } ∨
    ∃ d, t = record .ok (writeDesc d s) := by
  have hends := exec_ends .inspect s
  rw [h] at hends
  generalize hr : (Host.Outcome.next t : Result) = o at hends
  cases hends with
  | noInspector => cases hr; exact .inr (.inl rfl)
  | inspected => cases hr; exact .inr (.inr ⟨_, rfl⟩)
  | unwritten => cases hr
  | _ => cases hr; exact .inl ⟨_, rfl⟩

/-- Settles O56: field by field in the states of `exec_inspect_next`. -/
theorem frameOfInspect : Obligations.FrameOfInspect := by
  intro s t h
  obtain ⟨e, rfl⟩ | rfl | ⟨d, rfl⟩ := exec_inspect_next h
  · simp
  · simp
  · simp

/-! #### ENCAPSULATE (41_encapsulator section 1) -/

/-- ENCAPSULATE ends in an error that changes nothing else, or offers the burst of its payload, which fits its period. -/
theorem exec_encapsulate_next {s t : State} (h : exec .encapsulate s = .next t) :
    (∃ e, e ≠ .ok ∧ e ≠ .sinkWriteFailure ∧ t = record e s) ∨
    ∃ P a, payloadBytes s = .ok P ∧ burstSize s.desc.pre P.length ≤ s.desc.period.toNat ∧
      t = afterOffer (burst s.params s.be P s.desc) a
        (growScratch (swapPayload s.params s.be s.desc.xswap) P.length s) := by
  have hends := exec_ends .encapsulate s
  rw [h] at hends
  generalize hr : (Host.Outcome.next t : Result) = o at hends
  cases hends with
  | encapsulated P _ _ _ hP hfits =>
    obtain ⟨a, -, -, rfl⟩ := sinkOffer_next hr.symm
    exact .inr ⟨P, a, hP, hfits, rfl⟩
  | unwritten => cases hr
  | noInspector _ hi | unrecognized _ _ hi => simp at hi
  | _ => cases hr; exact .inl ⟨_, by simp, by simp, rfl⟩

/-- Settles O57: field by field in the states of `exec_encapsulate_next`. -/
theorem frameOfEncapsulate : Obligations.FrameOfEncapsulate := by
  intro s t h
  obtain ⟨e, -, -, rfl⟩ | ⟨P, a, -, -, rfl⟩ := exec_encapsulate_next h
  · simp
  · have hcap := growScratch_le (swapPayload s.params s.be s.desc.xswap) P.length s
    obtain herr | herr := afterOffer_err_cases (burst s.params s.be P s.desc) a
      (growScratch (swapPayload s.params s.be s.desc.xswap) P.length s)
    all_goals simp [herr, hcap, -afterOffer_err, -growScratch_scratchCap]

/-! #### SUBMIT (42_session section 2) -/

/-- The state SUBMIT makes its offer from: the descriptor loaded and, in a flush, the accumulation emptied. -/
def OffersFrom (s u : State) : Prop :=
  (∃ d, u = writeDesc d s) ∨ ∃ P pr d, u = emptyAccumulator (appendSubframe P pr (writeDesc d s))

/-- SUBMIT ends in an error that changes at most `TERM` (at dispatch) or `DESC_*` (where the burst is too large), keeps a
sub-frame, or makes an offer. -/
theorem exec_submit_next {s t : State} (h : exec .submit s = .next t) :
    (∃ e, e ≠ .sinkWriteFailure ∧ t = record e s) ∨
    t = record .unsupportedCodec { s with term := true } ∨
    (∃ d, t = record .payloadTooLarge (writeDesc d s)) ∨
    (∃ P pr d, t = record .ok { appendSubframe P pr (writeDesc d s) with agg := .accumulating }) ∨
    ∃ u bytes a swap n, OffersFrom s u ∧ t = afterOffer bytes a (growScratch swap n u) := by
  have hends := exec_ends .submit s
  rw [h] at hends
  generalize hr : (Host.Outcome.next t : Result) = o at hends
  cases hends with
  | noInspector => cases hr; exact .inr (.inl rfl)
  | submitTooLarge | subframeTooLarge => cases hr; exact .inr (.inr (.inl ⟨_, rfl⟩))
  | accumulated => cases hr; exact .inr (.inr (.inr (.inl ⟨_, _, _, rfl⟩)))
  | submitted =>
    obtain ⟨a, -, -, rfl⟩ := sinkOffer_next hr.symm
    exact .inr (.inr (.inr (.inr ⟨_, _, a, _, _, .inl ⟨_, rfl⟩, rfl⟩)))
  | flushed =>
    obtain ⟨a, -, -, rfl⟩ := sinkOffer_next hr.symm
    exact .inr (.inr (.inr (.inr ⟨_, _, a, _, _, .inr ⟨_, _, _, rfl⟩, rfl⟩)))
  | unwritten => cases hr
  | _ => cases hr; exact .inl ⟨_, by simp, rfl⟩

/-- Settles O58: field by field in the states of `exec_submit_next`. -/
theorem frameOfSubmit : Obligations.FrameOfSubmit := by
  intro s t h
  obtain ⟨e, -, rfl⟩ | rfl | ⟨d, rfl⟩ | ⟨P, pr, d, rfl⟩ | ⟨u, bytes, a, swap, n, hu, rfl⟩ := exec_submit_next h
  · simp
  · simp
  · simp
  · simp
  · have hcap := growScratch_le swap n u
    have herr := afterOffer_err_cases bytes a (growScratch swap n u)
    obtain ⟨d, rfl⟩ | ⟨P, pr, d, rfl⟩ := hu
    all_goals
      obtain herr | herr := herr
      all_goals simpa [herr, -afterOffer_err, -growScratch_scratchCap] using hcap

/-! #### `CFG` (10_state R25) -/

/-- A command keeps `CFG`, unless it is an OPEN that starts a session. -/
theorem exec_cfg {i : Instr} {s t : State} (h : exec i s = .next t) :
    (t.be = s.be ∧ t.codec = s.codec) ∨
    ∃ be c, i = .openSession be c ∧ s.sess = false ∧ t.sess = true ∧ t.be = be ∧ t.codec = c.code := by
  cases i with
  | openSession be c =>
    cases hsess : s.sess with
    | false =>
      cases (exec_openSession_of_closed be c hsess).symm.trans h
      exact .inr ⟨be, c, rfl, rfl, rfl, rfl, rfl⟩
    | true =>
      cases (exec_openSession_of_open be c hsess).symm.trans h
      exact .inl ⟨rfl, rfl⟩
  | closeSession =>
    cases (exec_closeSession s).symm.trans h
    exact .inl ⟨rfl, rfl⟩
  | inspect =>
    obtain ⟨-, -, -, hbe, hcodec, -⟩ := frameOfInspect s t h
    exact .inl ⟨hbe, hcodec⟩
  | encapsulate =>
    obtain ⟨-, -, -, -, hbe, hcodec, -⟩ := frameOfEncapsulate s t h
    exact .inl ⟨hbe, hcodec⟩
  | submit =>
    obtain ⟨-, hbe, hcodec, -⟩ := frameOfSubmit s t h
    exact .inl ⟨hbe, hcodec⟩

/-- What a step does to `CFG`: a reset or an OPEN that starts a session writes it, every other step keeps it. -/
theorem step_cfg {s t : State} (h : step s = .next t) :
    (t.be = s.be ∧ t.codec = s.codec) ∨ fetch s = .access .reset ∨
    ∃ be c, fetch s = .command (.openSession be c) ∧ s.sess = false ∧ t.sess = true ∧ t.be = be ∧
      t.codec = c.code := by
  obtain ⟨-, rfl⟩ | ⟨e, hf, ha⟩ | ⟨i, hf, hx⟩ | ⟨why, -, rfl⟩ := step_next_cases h
  · exact .inl ⟨rfl, rfl⟩
  · obtain ⟨rfl, -⟩ | ⟨m, d, len, rd, n, rfl, -⟩ := hostAccess_next ha
    · exact .inr (.inl hf)
    · exact .inl ⟨rfl, rfl⟩
  · obtain hkeep | ⟨be, c, rfl, hopen⟩ := exec_cfg hx
    · exact .inl hkeep
    · exact .inr (.inr ⟨be, c, hf, hopen⟩)
  · exact .inl ⟨rfl, rfl⟩

/-- The fields of `CFG` (10_state R25). -/
theorem cfgWord_fields (s : State) :
    (cfgWord s).getLsbD 0 = s.be ∧ (cfgWord s).extractLsb' 1 3 = s.codec ∧
      (cfgWord s).extractLsb' 4 28 = 0#28 := by
  unfold cfgWord
  generalize s.be = be
  generalize s.codec = codec
  revert be codec
  decide

/-- Settles O9: the fields by evaluation, the writers of `CFG` by `step_cfg`. -/
theorem configRegister : Obligations.ConfigRegister := by
  refine ⟨fun s => ?_, by decide, rfl, rfl, rfl, codecSupported_iff, fun s t h hchange => ?_⟩
  · obtain ⟨hbe, hcodec, hreserved⟩ := cfgWord_fields s
    exact ⟨hbe, hcodec, hreserved, rfl, fun _ => rfl⟩
  · obtain ⟨hbe, hcodec⟩ | hwriter := step_cfg h
    · exact (hchange.elim (· hbe) (· hcodec)).elim
    · exact hwriter

/-! ### The SINK and the stream (20_memory R50, R55) -/

/-- Settles O45: the answers of the SINK; a fixed count within the length is taken as it is. -/
theorem sinkOfferIsADraw : Obligations.SinkOfferIsADraw := by
  refine fun B s => ⟨sinkOffer_silent B, sinkOffer_answers B, fun a rest ha => ?_⟩
  simp only [sinkOffer, sinkAnswer, Nat.min_eq_left ha]
  rfl

/-- Settles O46: a command without an offer reports an empty one, an offer reports its own lengths. -/
theorem offerIsReported : Obligations.OfferIsReported := by
  refine ⟨fun i s t h => ?_, fun s v => ⟨rfl, rfl⟩⟩
  obtain ⟨e, u, rfl, he, hkeeps⟩ | ⟨bytes, a, u, rfl, ⟨ha, -⟩, hlen, hkeeps, -⟩ := exec_next_shape h
  · exact ⟨[], by simp [he, hkeeps.stream]⟩
  · have hburst : (BitVec.ofNat 32 bytes.length).toNat = bytes.length := by
      rw [BitVec.toNat_ofNat, Nat.mod_eq_of_lt hlen]
    have haccepted : (BitVec.ofNat 32 a).toNat = a := by
      rw [BitVec.toNat_ofNat, Nat.mod_eq_of_lt (ha.trans_lt hlen)]
    exact ⟨bytes, by simp [hburst, haccepted, ha, hkeeps.stream]⟩

/-- A command appends to the stream and keeps the parameters. -/
theorem exec_stream_prefix {i : Instr} {s t : State} (h : exec i s = .next t) :
    s.stream <+: t.stream ∧ t.params = s.params := by
  obtain ⟨e, u, rfl, -, hkeeps⟩ | ⟨bytes, a, u, rfl, -, -, hkeeps, -⟩ := exec_next_shape h
  · exact ⟨hkeeps.stream ▸ List.prefix_rfl, hkeeps.params⟩
  · exact ⟨hkeeps.stream ▸ List.prefix_append _ _, hkeeps.params⟩

/-- A HOST access that starts no command leaves the stream and the parameters alone, reset too (70_reset R200). -/
theorem hostAccess_stream {e : HostEvent} {s t : State} (h : hostAccess e s = .next t) :
    t.stream = s.stream ∧ t.params = s.params := by
  obtain ⟨-, rfl⟩ | ⟨m, d, len, rd, n, rfl, -⟩ := hostAccess_next h <;> exact ⟨rfl, rfl⟩

/-- Settles O54: by what the step fetched. -/
theorem streamOnlyGrows : Obligations.StreamOnlyGrows := by
  refine ⟨fun s t h => ?_, fun s hq => by simp [step, fetch, hq]⟩
  obtain ⟨-, rfl⟩ | ⟨e, -, ha⟩ | ⟨i, -, hx⟩ | ⟨why, -, rfl⟩ := step_next_cases h
  · exact ⟨List.prefix_rfl, rfl⟩
  · obtain ⟨hstream, hparams⟩ := hostAccess_stream ha
    exact ⟨hstream ▸ List.prefix_rfl, hparams⟩
  · exact exec_stream_prefix (s := popEvent s) hx
  · exact ⟨List.prefix_rfl, rfl⟩

end Sys2Proof.Machine

/-! ### What the commands read (10_state section 5, 20_memory R51)

A command is a function of the fields it reads: from two states that agree in those, it does one and the same thing. -/

namespace Sys2Proof.Machine

/-- Two states agree in what the commands read: of `FB` the bytes below `FRAME_LEN`, of the accumulation `ACC_PROFILE` only
while it holds something, of `DESC_*` all but `PROFILE`; neither the report of the last command, nor `SCRATCH_CAP`, nor the
stream. -/
structure SameReads (s' s : State) : Prop where
  sess : s'.sess = s.sess
  term : s'.term = s.term
  fill : s'.fill = s.fill
  be : s'.be = s.be
  codec : s'.codec = s.codec
  frameLen : s'.frameLen = s.frameLen
  desc : ∃ q, s'.desc = { s.desc with profile := q }
  fb : ∀ k, k < s.frameLen.toNat → memRead s'.fb k = memRead s.fb k
  acc : s'.acc = s.acc
  accProfile : s.fill ≠ 0#8 → s'.accProfile = s.accProfile
  params : s'.params = s.params
  sinkPlan : s'.sinkPlan = s.sinkPlan
  draws : s'.draws = s.draws

/-- What a command changes before it reports. -/
inductive Update where
  | keep
  | terminate
  | setSession (sess be : Bool) (codec : BitVec 3)
  | closeSession
  | load (d : Descriptor)
  | join (P : List Byte) (pr : Profile) (d : Descriptor)
  | flush (P : List Byte) (pr : Profile) (d : Descriptor)

/-- An update made to a state. -/
def Update.on : Update → State → State
  | .keep, s => s
  | .terminate, s => { s with term := true }
  | .setSession sess be codec, s => { clearSession s with sess := sess, be := be, codec := codec }
  | .closeSession, s => { clearSession s with sess := false }
  | .load d, s => writeDesc d s
  | .join P pr d, s => { appendSubframe P pr (writeDesc d s) with agg := .accumulating }
  | .flush P pr d, s => emptyAccumulator (appendSubframe P pr (writeDesc d s))

/-- How a command ends: in a fault, with a code and no offer, or with an offer of which the SINK takes `a` bytes. -/
inductive Ending where
  | stop (f : Fault)
  | report (e : ErrCode)
  | offer (bytes : List Byte) (a : Nat) (swap : Bool) (n : Nat)

/-- The outcome of an ending in a state. -/
def Ending.on : Ending → State → Result
  | .stop f, _ => .fault f
  | .report e, s => .next (record e s)
  | .offer bytes a swap n, s =>
    .next (afterOffer bytes a { s with scratchCap := grownCap swap n s.scratchCap })

/-- What a command does to two states alike. -/
def EndsAlike (o' : Result) (s' : State) (o : Result) (s : State) : Prop :=
  ∃ x : Ending, o' = x.on s' ∧ o = x.on s

theorem endsAlike_report (e : ErrCode) (s' s : State) :
    EndsAlike (.next (record e s')) s' (.next (record e s)) s :=
  ⟨.report e, rfl, rfl⟩

theorem endsAlike_stop (f : Fault) (s' s : State) : EndsAlike (.fault f) s' (.fault f) s :=
  ⟨.stop f, rfl, rfl⟩

/-- The SINK's answer to an offer depends on the environment's plan and the draws alone. -/
theorem sinkOffer_alike {s' s : State} (bytes : List Byte) (swap : Bool) (n : Nat) (hplan : s'.sinkPlan = s.sinkPlan)
    (hdraws : s'.draws = s.draws) :
    EndsAlike (sinkOffer bytes (growScratch swap n s')) s' (sinkOffer bytes (growScratch swap n s)) s := by
  simp only [growScratch_eq]
  cases hp : s.sinkPlan with
  | nil =>
    refine ⟨.offer bytes (min (Config.sinkAccepts s.draws) bytes.length) swap n, ?_, ?_⟩ <;>
      simp [sinkOffer, sinkAnswer, Ending.on, recordOffer, afterOffer, *]
  | cons answer rest =>
    cases answer with
    | accepts k =>
      refine ⟨.offer bytes (min k bytes.length) swap n, ?_, ?_⟩ <;>
        simp [sinkOffer, sinkAnswer, Ending.on, recordOffer, afterOffer, *]
    | silent =>
      rw [sinkOffer_silent _ (by simp [hplan, hp]), sinkOffer_silent _ (by simp)]
      exact endsAlike_stop _ s' s

/-- EmitBurst reads the parameters, the byte order and the SINK's answer. -/
theorem emitBurst_alike {s' s : State} (P : List Byte) (d : Descriptor) (hparams : s'.params = s.params)
    (hbe : s'.be = s.be) (hplan : s'.sinkPlan = s.sinkPlan) (hdraws : s'.draws = s.draws) :
    EndsAlike (emitBurst P d s') s' (emitBurst P d s) s := by
  by_cases hlarge : d.period.toNat < burstSize d.pre P.length
  · rw [emitBurst_tooLarge hlarge, emitBurst_tooLarge hlarge]
    exact endsAlike_report _ s' s
  · rw [emitBurst_fits (Nat.not_lt.1 hlarge), emitBurst_fits (Nat.not_lt.1 hlarge), hparams, hbe]
    exact sinkOffer_alike _ _ _ hplan hdraws

/-! The three cases of the aggregation (42_session R157). -/

section
variable {P : List Byte} {r : Inspected} {k : Nat} {s : State}

theorem aggregate_tooLarge (h : r.desc.period.toNat < burstSize r.desc.pre (s.acc.length + P.length)) :
    aggregate P r k s = .next (record .payloadTooLarge s) :=
  if_pos h

theorem aggregate_joins (hfits : burstSize r.desc.pre (s.acc.length + P.length) ≤ r.desc.period.toNat)
    (hlt : (s.fill + 1#8).toNat < k) :
    aggregate P r k s = .next (record .ok { appendSubframe P r.profile s with agg := .accumulating }) := by
  unfold aggregate
  rw [if_neg (Nat.not_lt.2 hfits)]
  exact if_pos hlt

theorem aggregate_flushes (hfits : burstSize r.desc.pre (s.acc.length + P.length) ≤ r.desc.period.toNat)
    (hge : k ≤ (s.fill + 1#8).toNat) :
    aggregate P r k s = emitBurst (s.acc ++ P) { r.desc with lencode := lengthCode (s.acc.length + P.length) }
      (emptyAccumulator (appendSubframe P r.profile s)) := by
  unfold aggregate
  rw [if_neg (Nat.not_lt.2 hfits), ← List.length_append]
  exact if_neg (Nat.not_lt.2 hge)

end

/-- A frame with a byte that nothing wrote stops INSPECT and SUBMIT (10_state R32). -/
theorem inspectFrame_unwritten {s : State} {f : Fault} (hr : Ready s) (hcodec : codecSupported s.codec = true)
    (hf : frameBytes s = .error f) : inspectFrame s = .error (.fault f) := by
  simp [inspectFrame, hr.sess, hr.term, hr.fits, hcodec, hf]

section
variable {s' s : State} (h : SameReads s' s)
include h

theorem SameReads.frameTooLong : frameTooLong s' = frameTooLong s := by
  rw [Bool.eq_iff_iff, frameTooLong_iff, frameTooLong_iff, h.params, h.frameLen]

theorem SameReads.ready (hr : Ready s) : Ready s' :=
  ⟨h.sess.trans hr.sess, h.term.trans hr.term, h.frameTooLong.trans hr.fits⟩

/-- The bytes below `FRAME_LEN` are the same frame. -/
theorem SameReads.frameBytes : frameBytes s' = frameBytes s := by
  simp only [Machine.frameBytes, frameCount, h.frameLen]
  exact readRange_congr fun k _ hk => h.fb k (by omega)

theorem SameReads.offset : s'.desc.offset = s.desc.offset := by
  obtain ⟨q, hq⟩ := h.desc
  rw [hq]

theorem SameReads.badPeriod : badPeriod s'.desc = badPeriod s.desc := by
  obtain ⟨q, hq⟩ := h.desc
  rw [hq]
  rfl

/-- So are those from `DESC_OFFSET` on, where the frame has them. -/
theorem SameReads.payloadBytes (hoffset : s.desc.offset.toNat ≤ frameCount s) : payloadBytes s' = payloadBytes s := by
  simp only [Machine.payloadBytes, frameCount, h.frameLen, h.offset] at hoffset ⊢
  exact readRange_congr fun k _ hk => h.fb k (by omega)

/-- ENCAPSULATE does the same in both: of `DESC_*` the burst does not hold `PROFILE` (40_inspectors R94). -/
theorem SameReads.encapsulate : EndsAlike (exec .encapsulate s') s' (exec .encapsulate s) s := by
  cases hsess : s.sess with
  | false =>
    rw [exec_encapsulate_noSession hsess, exec_encapsulate_noSession (h.sess.trans hsess)]
    exact endsAlike_report _ s' s
  | true =>
  cases hterm : s.term with
  | true =>
    rw [exec_encapsulate_terminated hsess hterm, exec_encapsulate_terminated (h.sess.trans hsess) (h.term.trans hterm)]
    exact endsAlike_report _ s' s
  | false =>
  by_cases hbad : Machine.frameTooLong s = true ∨ frameCount s < s.desc.offset.toNat ∨ Machine.badPeriod s.desc = true
  · have hbad' : Machine.frameTooLong s' = true ∨ frameCount s' < s'.desc.offset.toNat ∨
        Machine.badPeriod s'.desc = true := by
      rwa [h.frameTooLong, h.badPeriod, h.offset, frameCount, h.frameLen]
    rw [exec_encapsulate_badParameter hsess hterm hbad,
      exec_encapsulate_badParameter (h.sess.trans hsess) (h.term.trans hterm) hbad']
    exact endsAlike_report _ s' s
  · simp only [not_or, Bool.not_eq_true, Nat.not_lt] at hbad
    obtain ⟨hfits, hoffset, hperiod⟩ := hbad
    have hr : Ready s := ⟨hsess, hterm, hfits⟩
    have hoffset' : s'.desc.offset.toNat ≤ frameCount s' := by rwa [h.offset, frameCount, h.frameLen]
    have hperiod' := h.badPeriod.trans hperiod
    cases hP : Machine.payloadBytes s with
    | error f =>
      rw [exec_encapsulate_of_unwritten hr hoffset hperiod hP,
        exec_encapsulate_of_unwritten (h.ready hr) hoffset' hperiod' ((h.payloadBytes hoffset).trans hP)]
      exact endsAlike_stop f s' s
    | ok P =>
      rw [exec_encapsulate_of_payload hr hoffset hperiod hP,
        exec_encapsulate_of_payload (h.ready hr) hoffset' hperiod' ((h.payloadBytes hoffset).trans hP)]
      obtain ⟨q, hq⟩ := h.desc
      have hburst : emitBurst P s'.desc s' = emitBurst P s.desc s' := by
        rw [hq]
        rfl
      rw [hburst]
      exact emitBurst_alike P s.desc h.params h.be h.sinkPlan h.draws

/-- The checks INSPECT and SUBMIT share end both commands alike, or hand on the same frame and descriptor. -/
theorem SameReads.inspectFrame :
    (∃ o' o, inspectFrame s' = .error o' ∧ inspectFrame s = .error o ∧
      ∃ u : Update, EndsAlike o' (u.on s') o (u.on s)) ∨
    ∃ f r, Machine.inspectFrame s' = .ok (f, r) ∧ Machine.inspectFrame s = .ok (f, r) := by
  cases hsess : s.sess with
  | false =>
    exact .inl ⟨_, _, inspectFrame_noSession (h.sess.trans hsess), inspectFrame_noSession hsess, .keep,
      endsAlike_report _ s' s⟩
  | true =>
  have hsess' := h.sess.trans hsess
  cases hterm : s.term with
  | true =>
    exact .inl ⟨_, _, inspectFrame_terminated hsess' (h.term.trans hterm), inspectFrame_terminated hsess hterm, .keep,
      endsAlike_report _ s' s⟩
  | false =>
  have hterm' := h.term.trans hterm
  cases hcodec : codecSupported s.codec with
  | false =>
    exact .inl ⟨_, _, inspectFrame_noInspector hsess' hterm' (by rwa [h.codec]),
      inspectFrame_noInspector hsess hterm hcodec, .terminate, endsAlike_report _ _ _⟩
  | true =>
  have hcodec' : codecSupported s'.codec = true := by rwa [h.codec]
  cases hlong : Machine.frameTooLong s with
  | true =>
    exact .inl ⟨_, _, inspectFrame_frameTooLong hsess' hterm' hcodec' (h.frameTooLong.trans hlong),
      inspectFrame_frameTooLong hsess hterm hcodec hlong, .keep, endsAlike_report _ s' s⟩
  | false =>
  have hr : Ready s := ⟨hsess, hterm, hlong⟩
  cases hf : Machine.frameBytes s with
  | error f =>
    exact .inl ⟨_, _, inspectFrame_unwritten (h.ready hr) hcodec' (h.frameBytes.trans hf),
      inspectFrame_unwritten hr hcodec hf, .keep, endsAlike_stop f s' s⟩
  | ok f =>
  have hf' := h.frameBytes.trans hf
  have hinspect' : inspectAs s'.params f (Codec.ofCode s'.codec) = inspectAs s.params f (Codec.ofCode s.codec) := by
    rw [h.params, h.codec]
  cases hinspect : inspectAs s.params f (Codec.ofCode s.codec) with
  | none =>
    exact .inl ⟨_, _, inspectFrame_unrecognized (h.ready hr) hcodec' hf' (hinspect'.trans hinspect),
      inspectFrame_unrecognized hr hcodec hf hinspect, .keep, endsAlike_report _ s' s⟩
  | some r =>
    exact .inr ⟨f, r, inspectFrame_of (h.ready hr) hcodec' hf' (hinspect'.trans hinspect),
      inspectFrame_of hr hcodec hf hinspect⟩

/-- The aggregation reads the accumulated bytes and their count, besides what EmitBurst reads. -/
theorem SameReads.aggregate (P : List Byte) (r : Inspected) (k : Nat) :
    ∃ u : Update, EndsAlike (aggregate P r k (writeDesc r.desc s')) (u.on s')
      (Machine.aggregate P r k (writeDesc r.desc s)) (u.on s) := by
  have hacc : (writeDesc r.desc s').acc = (writeDesc r.desc s).acc := h.acc
  have hfill : (writeDesc r.desc s').fill = (writeDesc r.desc s).fill := h.fill
  by_cases hfits : burstSize r.desc.pre ((writeDesc r.desc s).acc.length + P.length) ≤ r.desc.period.toNat
  · by_cases hlt : ((writeDesc r.desc s).fill + 1#8).toNat < k
    · rw [aggregate_joins hfits hlt, aggregate_joins (by rwa [hacc]) (by rwa [hfill])]
      exact ⟨.join P r.profile r.desc, endsAlike_report _ _ _⟩
    · rw [aggregate_flushes hfits (Nat.not_lt.1 hlt),
        aggregate_flushes (by rwa [hacc]) (by rw [hfill]; exact Nat.not_lt.1 hlt), hacc]
      exact ⟨.flush P r.profile r.desc, emitBurst_alike _ _ h.params h.be h.sinkPlan h.draws⟩
  · rw [aggregate_tooLarge (Nat.not_le.1 hfits), aggregate_tooLarge (by rw [hacc]; exact Nat.not_le.1 hfits)]
    exact ⟨.load r.desc, endsAlike_report _ _ _⟩

theorem SameReads.submit : ∃ u : Update, EndsAlike (exec .submit s') (u.on s') (exec .submit s) (u.on s) := by
  obtain ⟨o', o, hframe', hframe, halike⟩ | ⟨f, r, hframe', hframe⟩ := h.inspectFrame
  · rwa [exec_submit_of_error hframe', exec_submit_of_error hframe]
  by_cases hother : s.fill ≠ 0#8 ∧ r.profile ≠ s.accProfile
  · obtain ⟨hfill, hprofile⟩ := hother
    rw [exec_submit_otherProfile hframe' (by rwa [h.fill]) (by rwa [h.accProfile hfill]),
      exec_submit_otherProfile hframe hfill hprofile]
    exact ⟨.keep, endsAlike_report _ _ _⟩
  · rw [not_and_or, not_not, not_not] at hother
    have hother' : s'.fill = 0#8 ∨ r.profile = s'.accProfile := by
      rw [h.fill]
      by_cases hfill : s.fill = 0#8
      · exact .inl hfill
      · exact .inr ((hother.resolve_left hfill).trans (h.accProfile hfill).symm)
    rw [exec_submit_of_ok hframe' hother', exec_submit_of_ok hframe hother, h.params]
    split_ifs
    · exact ⟨.load r.desc, emitBurst_alike _ _ h.params h.be h.sinkPlan h.draws⟩
    · exact h.aggregate f r _

/-- A command does the same to two states that agree in what it reads. -/
theorem SameReads.exec (i : Instr) : ∃ u : Update, EndsAlike (exec i s') (u.on s') (Machine.exec i s) (u.on s) := by
  cases i with
  | openSession be c =>
    cases hsess : s.sess with
    | false =>
      rw [exec_openSession_of_closed be c hsess, exec_openSession_of_closed be c (h.sess.trans hsess)]
      exact ⟨.setSession true be c.code, endsAlike_report _ _ _⟩
    | true =>
      rw [exec_openSession_of_open be c hsess, exec_openSession_of_open be c (h.sess.trans hsess)]
      exact ⟨.keep, endsAlike_report _ _ _⟩
  | closeSession => exact ⟨.closeSession, endsAlike_report _ _ _⟩
  | inspect =>
    obtain ⟨o', o, hframe', hframe, halike⟩ | ⟨f, r, hframe', hframe⟩ := h.inspectFrame
    · rwa [exec_inspect_of_error hframe', exec_inspect_of_error hframe]
    · rw [exec_inspect_of_ok hframe', exec_inspect_of_ok hframe]
      exact ⟨.load r.desc, endsAlike_report _ _ _⟩
  | encapsulate => exact ⟨.keep, h.encapsulate⟩
  | submit => exact h.submit

end

/-- A state agrees with itself. -/
theorem SameReads.refl (s : State) : SameReads s s :=
  ⟨rfl, rfl, rfl, rfl, rfl, rfl, ⟨_, rfl⟩, fun _ _ => rfl, rfl, fun _ => rfl, rfl, rfl, rfl⟩

/-- Settles O48: a report and an offer overwrite all three registers. -/
theorem resultRegistersAreNotRead : Obligations.ResultRegistersAreNotRead := by
  intro i s e b a
  have hreads : SameReads { s with err := e, burstLen := b, sinkAccepted := a } s := { SameReads.refl s with }
  obtain ⟨u, x, h', h⟩ := hreads.exec i
  rw [h', h]
  cases x <;> cases u <;> rfl

/-- Settles O49: whatever a command does to the rest of the state, it does it alike. -/
theorem scratchIsNotRead : Obligations.ScratchIsNotRead := by
  intro i s n
  have hreads : SameReads { s with scratchCap := n } s := { SameReads.refl s with }
  obtain ⟨u, x, h', h⟩ := hreads.exec i
  rw [h', h]
  cases x <;> cases u <;> rfl

/-- Settles O50: an update that leaves `FILL` at 0 leaves `ACC_PROFILE` out of sight, any other writes it. -/
theorem idleProfileIsNotRead : Obligations.IdleProfileIsNotRead := by
  intro i s pr hfill
  have hreads : SameReads { s with accProfile := pr } s := { SameReads.refl s with accProfile := absurd hfill }
  obtain ⟨u, x, h', h⟩ := hreads.exec i
  rw [h', h]
  cases x <;> cases u <;> simp [Ending.on, Update.on, mapNext, hideIdleProfile, hfill]

/-- Settles O51: no command writes `FB`, and the frame is all of it that is read. -/
theorem coreReadsOnlyTheFrame : Obligations.CoreReadsOnlyTheFrame := by
  refine ⟨fun i s t h => ?_, fun i s m hm => ?_⟩
  · obtain ⟨e, u, rfl, -, hkeeps⟩ | ⟨bytes, a, u, rfl, -, -, hkeeps, -⟩ := exec_next_shape h
    · exact hkeeps.fb
    · exact hkeeps.fb
  · have hreads : SameReads { s with fb := m } s := { SameReads.refl s with fb := hm }
    obtain ⟨u, x, h', h⟩ := hreads.exec i
    rw [h', h]
    cases x <;> cases u <;> rfl

end Sys2Proof.Machine

/-! ### Errors local to a frame (42_session section 3) -/

namespace Sys2Proof.Machine

/-- A command reads neither the report, nor `SCRATCH_CAP`, nor the stream, of which it sees only what it appends. -/
theorem exec_pastStream (j : Instr) (s : State) (e : ErrCode) (b a : Word) (cap : Nat) (stream : List Byte) :
    mapNext (pastStream stream.length)
        (exec j { s with err := e, burstLen := b, sinkAccepted := a, scratchCap := cap, stream := stream }) =
      mapNext (pastStream s.stream.length) (exec j s) := by
  have hreads : SameReads { s with err := e, burstLen := b, sinkAccepted := a, scratchCap := cap, stream := stream } s :=
    { SameReads.refl s with }
  obtain ⟨u, x, h', h⟩ := hreads.exec j
  rw [h', h]
  cases x with
  | stop f => rfl
  | report e =>
    cases u <;>
      simp [Ending.on, Update.on, mapNext, pastStream, record, clearSession, writeDesc, appendSubframe, emptyAccumulator]
  | offer bytes a swap n =>
    cases u <;> simp [Ending.on, Update.on, mapNext, pastStream, afterOffer, clearSession, writeDesc, appendSubframe,
      emptyAccumulator] <;> rfl

/-- After a record every command does what it would have done without it. -/
theorem exec_record (j : Instr) (e : ErrCode) (s : State) : exec j (record e s) = exec j s :=
  resultRegistersAreNotRead j s e 0#32 0#32

/-- Settles O26: an error changes nothing a command reads, but what the clauses put back. -/
theorem errorsAreLocal : Obligations.ErrorsAreLocal := by
  refine ⟨fun i j s t h herr => ?_, fun j s t rest w why hw h => ?_, fun j s t h herr => ?_, fun j s t h herr => ?_,
    fun j s t h herr => ?_⟩
  · have hne : t.err ≠ .ok ∧ t.err ≠ .sinkWriteFailure := by
      obtain herr | herr | herr | herr | ⟨herr, -⟩ := herr <;> simp [herr]
    obtain ⟨e, rfl⟩ | ⟨-, rfl⟩ | ⟨rfl, d, rfl⟩ := exec_error_cases h hne.1 hne.2
    · exact exec_record j e s
    · simp at herr
    · simp at herr
  · cases (step_cmdWord_error hw s rest).symm.trans h
    exact exec_record j _ _
  · obtain ⟨e, rfl⟩ | ⟨-, rfl⟩ | ⟨-, d, rfl⟩ := exec_error_cases h (by simp [herr]) (by simp [herr])
    · exact exec_record j e s
    · cases herr
    · exact exec_record j .payloadTooLarge s
  · obtain ⟨e, -, hne, rfl⟩ | ⟨P, a, -, -, rfl⟩ := exec_encapsulate_next h
    · exact absurd herr hne
    · rw [growScratch_eq]
      exact exec_pastStream j s _ _ _ _ _
  · obtain ⟨e, hne, rfl⟩ | rfl | ⟨d, rfl⟩ | ⟨P, pr, d, rfl⟩ | ⟨u, bytes, a, swap, n, hu, rfl⟩ := exec_submit_next h
    · exact absurd herr hne
    · cases herr
    · cases herr
    · cases herr
    · rw [growScratch_eq]
      obtain ⟨d, rfl⟩ | ⟨P, pr, d, rfl⟩ := hu
      · exact exec_pastStream j s _ _ _ _ _
      · exact exec_pastStream j s _ _ _ _ _

/-! ### The descriptor registers (10_state R26) -/

/-- `DESC_FLAGS` as a number: the fields stand apart. -/
theorem descFlagsWord_eq (d : Descriptor) :
    descFlagsWord d =
      BitVec.ofNat 32 ((if d.xswap then 1 else 0) + (if d.pre then 2 else 0) + 256 * d.profile.toNat) := by
  unfold descFlagsWord
  generalize d.xswap = xswap
  generalize d.pre = pre
  generalize d.profile = profile
  revert xswap pre profile
  decide

/-- Of a word written to `DESC_FLAGS` the bits 0, 1 and 11:8 read back (10_state R26). -/
theorem descFlagsWord_regWrite (v : Word) (s : State) :
    descFlagsWord (regWrite v s .descFlags).desc = v &&& 0x00000F03#32 := by
  apply BitVec.eq_of_getLsbD_eq
  intro i hi
  interval_cases i <;> simp [descFlagsWord, regWrite]

/-- A word cut to 16 bits and read back. -/
theorem setWidth_setWidth_half (v : Word) : (v.setWidth 16).setWidth 32 = v &&& 0x0000FFFF#32 := by
  apply BitVec.eq_of_toNat_eq
  simp (disch := omega) [and_mask_eq_mod _ 16, Nat.mod_eq_of_lt]

/-- Settles O11: the words by their fields; `PROFILE` is nothing ENCAPSULATE reads or writes. -/
theorem descriptorRegisters : Obligations.DescriptorRegisters := by
  refine ⟨fun s d => ⟨rfl, rfl, rfl, descFlagsWord_eq d, rfl⟩, fun s v => ⟨rfl, setWidth_setWidth_half v,
    setWidth_setWidth_half v, rfl, descFlagsWord_regWrite v s, rfl⟩, fun s q => ?_⟩
  have hreads : SameReads { s with desc := { s.desc with profile := q } } s :=
    { SameReads.refl s with desc := ⟨q, rfl⟩ }
  obtain ⟨x, h', h⟩ := hreads.encapsulate
  rw [h', h]
  cases x <;> rfl

/-! ### Where a command stops (60_exceptions section 6) -/

/-- A range read faults at the first byte that nothing wrote. -/
theorem readRange_unwritten {m : Memory} {off n k : Nat} (hlo : off ≤ k) (hhi : k < off + n)
    (hk : memRead m k = none) :
    ∃ j, off ≤ j ∧ j ≤ k ∧ memRead m j = none ∧ readRange m off n = .error (.unwrittenRead j) := by
  induction n generalizing off with
  | zero => omega
  | succ n ih =>
    cases hoff : memRead m off with
    | none => exact ⟨off, le_rfl, hlo, hoff, by simp [readRange, hoff]⟩
    | some b =>
      have hne : off ≠ k := by
        rintro rfl
        simp [hk] at hoff
      obtain ⟨j, hj, hjk, hnone, hread⟩ := ih (off := off + 1) (by omega) (by omega)
      exact ⟨j, by omega, hjk, hnone, by simp [readRange, hoff, hread]⟩

/-- A command faults at a SINK that never answers, or at a byte of the frame that nothing wrote. -/
theorem exec_fault {i : Instr} {s : State} {f : Fault} (h : exec i s = .fault f) :
    frameCommand i = true ∧
      ((f = .sinkNeverAnswers ∧ i ≠ .inspect ∧ s.sinkPlan.head? = some .silent) ∨
        ∃ k, f = .unwrittenRead k ∧ k < s.frameLen.toNat ∧ memRead s.fb k = none) := by
  have hends := exec_ends i s
  rw [h] at hends
  generalize hr : (Host.Outcome.fault f : Result) = o at hends
  cases hends with
  | unwritten _ k hi _ hnone hk =>
    cases hr
    exact ⟨hi, .inr ⟨k, rfl, hk, hnone⟩⟩
  | encapsulated | submitted | flushed =>
    obtain ⟨rfl, hsilent⟩ := sinkOffer_fault hr.symm
    exact ⟨rfl, .inl ⟨rfl, nofun, by simpa using hsilent⟩⟩
  | _ => cases hr

/-- Settles O27: faults by `exec_fault`, refusals not at all, and past the checks the first unwritten byte of what the
command reads. -/
theorem stopsOnlyWhereNamed : Obligations.StopsOnlyWhereNamed := by
  refine ⟨fun i s f => exec_fault, fun i s r => exec_not_refused, fun i s k hi hsess hterm hlt hfits hk hnone => ?_,
    fun s k hsess hterm hfits hlo hk hzero heven hnone => ?_⟩
  · have hready : Ready s := ⟨hsess, hterm, (frameTooLong_false_iff s).2 hfits⟩
    obtain ⟨j, -, hjk, hj, hread⟩ := readRange_unwritten (Nat.zero_le k) (by rwa [Nat.zero_add]) hnone
    have hframe := inspectFrame_unwritten hready ((codecSupported_iff _).2 hlt) hread
    obtain rfl | rfl := hi
    · exact ⟨j, hjk, hj, exec_inspect_of_error hframe⟩
    · exact ⟨j, hjk, hj, exec_submit_of_error hframe⟩
  · have hready : Ready s := ⟨hsess, hterm, (frameTooLong_false_iff s).2 hfits⟩
    obtain ⟨j, hlo', hjk, hj, hread⟩ :=
      readRange_unwritten (n := frameCount s - s.desc.offset.toNat) hlo (by unfold frameCount; omega) hnone
    exact ⟨j, hlo', hjk, hj, exec_encapsulate_of_unwritten hready (hlo.trans hk.le)
      ((badPeriod_false_iff _).2 ⟨hzero, heven⟩) hread⟩

end Sys2Proof.Machine

/-! ### What an inspector reads (40_inspectors R92, R111) -/

namespace Sys2Proof.Machine

/-- Settles O32: every byte an inspector looks at is among the first eight, and so are the four of a DTS marker. -/
theorem inspectorsReadEightBytes : Obligations.InspectorsReadEightBytes := by
  intro p f g c hlen htake
  have hbyte (k : Nat) (hk : k < 8) : f[k]? = g[k]? := by
    simpa [hk] using congrArg (·[k]?) htake
  have hmarker : f.take 4 = g.take 4 := by
    simpa [List.take_take] using congrArg (List.take 4) htake
  cases c with
  | ac3 => simp only [inspectAs, inspectAc3, hlen, hbyte 0, hbyte 1, hbyte 5, Nat.reduceLT]
  | dts =>
    have hnblks (m : DtsMarker) : dtsNblks f m = dtsNblks g m := by
      cases m <;> simp only [dtsNblks, hbyte 4, hbyte 5, hbyte 6, hbyte 7, Nat.reduceLT]
    simp only [inspectAs, inspectDts, dtsMarker, hmarker, hlen, hnblks]
  | adtsAac =>
    simp only [inspectAs, inspectAac, hlen, hbyte 0, hbyte 1, hbyte 2, hbyte 3, hbyte 4, hbyte 5, hbyte 6, Nat.reduceLT]
  | unsupported k => rfl

/-! ### Reading a burst back (41_encapsulator section 7) -/

/-- Reading in the order of the writer gives back what it wrote. -/
theorem unitAt_w16 (be : Bool) (v : Half) : ∃ x y, w16 be v = [x, y] ∧ unitAt be x y = v := by
  have hjoin : v.extractLsb' 8 8 ++ v.extractLsb' 0 8 = v :=
    (BitVec.extractLsb'_append_extractLsb'_eq_extractLsb' (start₁ := 0) (len₁ := 8) rfl).trans BitVec.extractLsb'_eq_self
  cases be
  · exact ⟨_, _, rfl, hjoin⟩
  · exact ⟨_, _, rfl, hjoin⟩

/-- A byte in the most significant half of a unit. -/
theorem unitAt_highByte (be : Bool) (b : Byte) :
    ∃ x y, (if be then [b, 0x00#8] else [0x00#8, b]) = [x, y] ∧ (unitAt be x y).toNat = 256 * b.toNat := by
  have hjoin : ∀ b : Byte, (b ++ 0x00#8 : Half).toNat = 256 * b.toNat := by decide
  cases be
  · exact ⟨_, _, rfl, hjoin b⟩
  · exact ⟨_, _, rfl, hjoin b⟩

/-- The trailing unit of an odd payload, at its place in the burst. -/
theorem burst_trailingUnit (p : Params) (be : Bool) {P : List Byte} (d : Descriptor) {b x y : Byte}
    (hodd : P.length % 2 = 1) (hb : P.getLast? = some b)
    (hunit : (if be then [b, 0x00#8] else [0x00#8, b]) = [x, y]) :
    (burst p be P d)[headLen d.pre + (P.length - 1)]? = some x ∧
      (burst p be P d)[headLen d.pre + P.length]? = some y := by
  have hfirst := burst_getElem?_trail p be P d (k := 0) (by omega)
  have hsecond := burst_getElem?_trail p be P d (k := 1) (by omega)
  rw [trail_of_odd be hodd hb, hunit] at hfirst hsecond
  rw [show 2 * (P.length / 2) + 0 = P.length - 1 by omega] at hfirst
  rw [show 2 * (P.length / 2) + 1 = P.length by omega] at hsecond
  exact ⟨hfirst, hsecond⟩

/-- Settles O40: `unitAt` undoes the writer, on the preamble and on the trailing unit. -/
theorem preambleRoundTrip : Obligations.PreambleRoundTrip := by
  refine fun p be P d => ⟨fun hpre => ?_, fun b hodd hb => ?_⟩
  · rw [burst_take_preamble p be P hpre, preamble]
    obtain ⟨a₁, a₂, hA, hsyncA⟩ := unitAt_w16 be p.syncA
    obtain ⟨b₁, b₂, hB, hsyncB⟩ := unitAt_w16 be p.syncB
    obtain ⟨c₁, c₂, hC, htype⟩ := unitAt_w16 be d.type
    obtain ⟨d₁, d₂, hD, hlencode⟩ := unitAt_w16 be d.lencode
    rw [hA, hB, hC, hD]
    exact ⟨_, _, _, _, _, _, _, _, rfl, hsyncA, hsyncB, htype, hlencode⟩
  · obtain ⟨x, y, hunit, hvalue⟩ := unitAt_highByte be b
    obtain ⟨hx, hy⟩ := burst_trailingUnit p be d hodd hb hunit
    exact ⟨x, y, hx, hy, hvalue⟩

/-- An ENCAPSULATE that ends in `OK` appended the whole burst of its payload and left what it read as it was. -/
theorem exec_encapsulate_ok {s t : State} (h : exec .encapsulate s = .next t) (hok : t.err = .ok) :
    ∃ P, payloadBytes s = .ok P ∧ (burst s.params s.be P s.desc).length = s.desc.period.toNat ∧
      t.stream = s.stream ++ burst s.params s.be P s.desc ∧
      payloadBytes t = payloadBytes s ∧ t.params = s.params ∧ t.be = s.be ∧ t.desc = s.desc := by
  obtain ⟨e, hne, -, rfl⟩ | ⟨P, a, hP, hfits, rfl⟩ := exec_encapsulate_next h
  · exact absurd hok hne
  · have hall : (burst s.params s.be P s.desc).length ≤ a := by
      by_contra hshort
      simp [Nat.not_le.1 hshort] at hok
    rw [growScratch_eq]
    exact ⟨P, hP, burst_length _ _ _ _ hfits, by simp [List.take_of_length_le hall], rfl, rfl, rfl, rfl⟩

/-- Settles O47: the second ENCAPSULATE finds the payload, the descriptor and the parameters of the first. -/
theorem encapsulateTwice : Obligations.EncapsulateTwice := by
  intro s t h hok
  obtain ⟨P, hP, hlen, hstream, hpayload, hparams, hbe, hdesc⟩ := exec_encapsulate_ok h hok
  refine ⟨_, hlen, hstream, fun u hu hok' => ?_⟩
  obtain ⟨P', hP', -, hstream', -⟩ := exec_encapsulate_ok hu hok'
  cases (hP.symm.trans hpayload.symm).trans hP'
  rw [hstream', hstream, hparams, hbe, hdesc]

/-! ### Aggregation (42_session R157, R158) -/

/-- Settles O43: the three cases of the aggregation, where joining does not wrap `FILL`. -/
theorem aggregationJoinsAndFlushes : Obligations.AggregationJoinsAndFlushes := by
  intro P r k s hfill
  have hnext : (s.fill + 1#8).toNat = s.fill.toNat + 1 := by
    rw [BitVec.toNat_add, BitVec.toNat_ofNat]
    omega
  rw [← burstSize_eq]
  refine ⟨aggregate_tooLarge, fun hfits hlt => ?_, fun hfits hge hanswers => ?_⟩
  · have hvalue : BitVec.ofNat 8 (s.fill.toNat + 1) = s.fill + 1#8 := by
      rw [← hnext, BitVec.ofNat_toNat, BitVec.setWidth_eq]
    rw [aggregate_joins hfits (hnext ▸ hlt), hvalue]
    rfl
  · have hlen : (s.acc ++ P).length = s.acc.length + P.length := List.length_append
    rw [aggregate_flushes hfits (hnext ▸ hge), ← hlen]
    exact emitBurst_answered (s := emptyAccumulator (appendSubframe P r.profile s))
      (d := { r.desc with lencode := lengthCode (s.acc ++ P).length }) (by rwa [hlen]) hanswers

/-- A flush completes the `AGG_K`-th sub-frame: one fewer did not, and with none held `AGG_K` would be 1. -/
theorem StateInv.aggK_of_flush {s : State} (h : StateInv s) {pr : Profile} (hjoins : s.fill ≠ 0#8 → pr = s.accProfile)
    (hk : aggK s.params pr ≠ 1) (hge : aggK s.params pr ≤ s.fill.toNat + 1) :
    aggK s.params pr = s.fill.toNat + 1 := by
  by_cases hfill : s.fill = 0#8
  · have hpos := (aggK_range h.params pr).1
    rw [hfill, BitVec.toNat_zero] at hge
    omega
  · have hlt := h.fill_lt hfill
    rw [← hjoins hfill] at hlt
    omega

/-- The length of a burst as `BURST_LEN` reports it is the period's word. -/
theorem ofNat_burst_length (p : Params) (be : Bool) (P : List Byte) (d : Descriptor)
    (h : burstSize d.pre P.length ≤ d.period.toNat) : BitVec.ofNat 32 (burst p be P d).length = d.period := by
  rw [burst_length p be P d h, BitVec.ofNat_toNat, BitVec.setWidth_eq]

/-- Settles O44: a SUBMIT that neither keeps a sub-frame nor flushes leaves the accumulation alone. -/
theorem aggregationStates : Obligations.AggregationStates := by
  intro s t hinv h
  have hnext := hinv.session.fill_add_one
  have hends := exec_ends .submit s
  rw [h] at hends
  generalize hr : (Host.Outcome.next t : Result) = o at hends
  cases hends with
  | accumulated f r _ _ _ _ hlt =>
    cases hr
    exact .inr (.inl ⟨rfl, rfl, hnext, rfl, List.prefix_append _ _, hlt⟩)
  | flushed f r _ hjoins hk hfits hge =>
    obtain ⟨a, -, -, rfl⟩ := sinkOffer_next hr.symm
    have hcount := hinv.aggK_of_flush hjoins hk (hnext ▸ hge)
    refine .inr (.inr ⟨by simp, by simp, by simp, by simpa using hcount, ?_, afterOffer_err_cases _ _ _⟩)
    rw [afterOffer_burstLen, afterOffer_desc, growScratch_desc]
    exact ofNat_burst_length _ _ _ _ (by rwa [List.length_append])
  | submitted =>
    obtain ⟨a, -, -, rfl⟩ := sinkOffer_next hr.symm
    exact .inl (by simp)
  | unwritten => cases hr
  | _ => cases hr; exact .inl ⟨rfl, rfl, rfl, rfl⟩

end Sys2Proof.Machine

/-! ### The register map and `STATUS` (10_state R22, R24) -/

namespace Sys2Proof.Machine

/-- The fields of `STATUS`, its reserved bits 0 (10_state R24). -/
theorem statusWord_fields (s : State) :
    (statusWord s).extractLsb' 0 4 = errNumber s.err ∧ (statusWord s).getLsbD 4 = s.sess ∧
      (statusWord s).getLsbD 5 = s.term ∧ (statusWord s).getLsbD 6 = aggBit s.agg ∧
      (statusWord s).getLsbD 7 = false ∧ (statusWord s).extractLsb' 8 8 = s.fill ∧
      (statusWord s).extractLsb' 16 16 = 0#16 := by
  refine ⟨?_, by simp [statusWord], by simp [statusWord], by simp [statusWord], by simp [statusWord], ?_, ?_⟩
  all_goals
    apply BitVec.eq_of_getLsbD_eq
    intro i hi
    interval_cases i <;> simp [statusWord]

/-- Bit 6 of `STATUS` is 1 exactly while accumulating. -/
theorem aggBit_iff (a : AggState) : aggBit a = true ↔ a = .accumulating := by
  cases a <;> simp [aggBit]

/-- Settles O7: the fields of the word, which a HOST write does not reach. -/
theorem statusWordLayout : Obligations.StatusWordLayout := by
  refine ⟨fun s => ?_, by decide⟩
  obtain ⟨herr, hsess, hterm, hagg, hreserved, hfill, hhigh⟩ := statusWord_fields s
  exact ⟨herr, hsess, hterm, hagg ▸ aggBit_iff s.agg, hreserved, hfill, hhigh, rfl, fun _ => rfl⟩

/-- Settles O12: registers and cells by the laws of the bus, reset values by those of a reset. -/
theorem registerMap : Obligations.RegisterMap := by
  refine ⟨fun p => ⟨target_reg p .cmd, target_reg p .status, target_reg p .cfg, target_reg p .frameLen,
    target_reg p .descType, target_reg p .descLencode, target_reg p .descOffset, target_reg p .descFlags,
    target_reg p .descPeriod, target_reg p .burstLen, target_reg p .sinkAccepted, target_cell p⟩,
    regRead_applyReset State.reset, fun s v => ?_⟩
  exact ⟨rfl, rfl, rfl, rfl, rfl, rfl, rfl, rfl, rfl, rfl, rfl, rfl, rfl⟩

/-! ### Under which name an access is refused (20_memory R53, R54) -/

section
variable {p : Params} {o width : Nat}

theorem targetAt_regWidth (ho : o < regSpaceEnd) (hw : width ≠ 32) :
    targetAt p o width = .nothing (.accessWidth o width) := by
  simp [targetAt, ho, hw]

theorem targetAt_misaligned (ho : o < regSpaceEnd) (halign : o % 4 ≠ 0) :
    targetAt p o 32 = .nothing (.misaligned o) := by
  simp [targetAt, ho, (regAt_eq_none_iff ho).2 halign]

theorem targetAt_cellWidth (hlo : fbOffset ≤ o) (hhi : o < fbOffset + p.frameBufBytes) (hw : width ≠ 8) :
    targetAt p o width = .nothing (.accessWidth o width) := by
  have hreg : ¬o < regSpaceEnd := by simp only [regSpaceEnd, fbOffset] at *; omega
  simp [targetAt, hreg, hlo, hhi, hw]

theorem targetAt_unmapped (ho : regSpaceEnd ≤ o) (hout : ¬(fbOffset ≤ o ∧ o < fbOffset + p.frameBufBytes)) :
    targetAt p o width = .nothing (.unmapped (p.ibeBase + o)) := by
  simp [targetAt, Nat.not_lt.2 ho, hout]

end

/-- A step performing a HOST access, reading or writing, is refused exactly where the address reaches nothing. -/
theorem step_refused_iff {s : State} {rest : List HostEvent} {addr width : Nat} {v : Word} {e : HostEvent}
    {why : Refusal} (he : e = .read addr width ∨ e = .write addr width v) :
    step { s with hostQueue := e :: rest } = .refused why ↔ target s.params addr width = .nothing why := by
  obtain rfl | rfl := he
  · exact step_read_refused_iff
  · exact step_write_refused_iff

/-- Settles O13: each refusal by what the address reaches there; an access by the rules reaches something. -/
theorem refusedAccesses : Obligations.RefusedAccesses := by
  intro s rest o width v e he
  have hiff (why : Refusal) := step_refused_iff (s := s) (rest := rest) (why := why) he
  simp only [target_base_add] at hiff
  refine ⟨fun ho hw => (hiff _).2 (targetAt_regWidth ho hw), ?_,
    fun hlo hhi hw => (hiff _).2 (targetAt_cellWidth hlo hhi hw), fun ho hout => (hiff _).2 (targetAt_unmapped ho hout),
    fun hrules why hrefused => ?_, fun a e' ha he' => (step_refused_iff he').2 (target_below s.params width ha)⟩
  · rintro ho rfl halign
    exact (hiff _).2 (targetAt_misaligned ho halign)
  · have haddressable : Addressable s.params o width := hrules.imp (fun ⟨ho, hw, halign⟩ => ⟨ho, halign, hw⟩) id
    exact (targetAt_nothing_iff _ _ _).1 ⟨why, (hiff why).1 hrefused⟩ haddressable

/-! ### What HOST reads and writes do (20_memory R52) -/

/-- Settles O14: a register by `step_rdReg`, a cell by the law of the bus. -/
theorem hostReadsHaveNoSideEffect : Obligations.HostReadsHaveNoSideEffect := by
  refine fun s rest => ⟨fun r => step_rdReg s r rest, fun i hi => ?_⟩
  have hcell : target s.params (s.params.ibeBase + 0x1000 + i) 8 = .cell i := target_cell s.params i hi
  rw [step_access (by rfl)]
  refine ⟨fun b hb => ?_, fun hnone => ⟨Config.unwrittenByte s.draws, ?_⟩⟩
  · simp [hostAccess, hostRead, hcell, hb]
  · simp [hostAccess, hostRead, hcell, hnone]

/-- A HOST write of a byte inside the frame buffer writes that byte. -/
theorem step_wrByte (s : State) {i : Nat} (b : Byte) (hi : i < s.params.frameBufBytes) (rest : List HostEvent) :
    step { s with hostQueue := wrByte s.params i b :: rest } =
      .next { s with hostQueue := rest, fb := memWrite s.fb i b } := by
  have hcell := target_cell s.params i hi
  rw [step_access (by simp [commandOf, wrByte, hcell])]
  simp [hostAccess, hostWrite, wrByte, hcell]

/-- A HOST write of a register other than `CMD` writes that register. -/
theorem step_wrReg (s : State) {r : RegName} (v : Word) (hr : r ≠ .cmd) (rest : List HostEvent) :
    step { s with hostQueue := wrReg s.params r v :: rest } = .next { regWrite v s r with hostQueue := rest } := by
  rw [step_access (by simp [commandOf, wrReg, target_reg, hr])]
  simp only [hostAccess, hostWrite, wrReg, target_reg]
  cases r <;> rfl

/-- A register write leaves what every other register reads as. -/
theorem regRead_regWrite_of_ne (v : Word) (s : State) {q r : RegName} (h : q ≠ r) :
    regRead (regWrite v s r) q = regRead s q := by
  cases r with
  | cmd | status | cfg | burstLen | sinkAccepted => rfl
  | frameLen | descType | descLencode | descOffset | descFlags | descPeriod =>
    cases q <;> simp_all [regRead, regWrite, statusWord, cfgWord, descFlagsWord]

/-- What a register reads as does not depend on the queue. -/
theorem regRead_hostQueue (s : State) (q : RegName) (rest : List HostEvent) :
    regRead { s with hostQueue := rest } q = regRead s q := by
  cases q <;> rfl

/-- Settles O15: the step of each write, read back by `memRead_memWrite` and `regRead_regWrite_of_ne`. -/
theorem hostWritesReachTheirPlace : Obligations.HostWritesReachTheirPlace := by
  refine fun s rest => ⟨fun i b hi => ⟨_, step_wrByte s b hi rest, fun j => memRead_memWrite s.fb i j b⟩,
    fun r v hr => ⟨_, step_wrReg s v hr rest, rfl, fun q hq => ?_, ?_⟩⟩
  · rw [regRead_hostQueue, regRead_regWrite_of_ne v s hq]
  · rw [regWrite_shape]

/-! ### Loading a frame (30_encoding R78) -/

/-- The frame buffer after bytes are written from an index on. -/
def writeBytes : Memory → Nat → List Byte → Memory
  | m, _, [] => m
  | m, i, b :: bs => writeBytes (memWrite m i b) (i + 1) bs

theorem memRead_writeBytes (m : Memory) (i : Nat) (bs : List Byte) (j : Nat) :
    memRead (writeBytes m i bs) j = if i ≤ j ∧ j < i + bs.length then bs[j - i]? else memRead m j := by
  induction bs generalizing m i with
  | nil =>
    have hout : ¬(i ≤ j ∧ j < i) := by omega
    simp [writeBytes, hout]
  | cons b bs ih =>
    rw [writeBytes, ih, memRead_memWrite, List.length_cons]
    by_cases hj : j = i
    · simp [hj]
    · by_cases hlater : i + 1 ≤ j
      · have hindex : j - i = j - (i + 1) + 1 := by omega
        have hsame : i + 1 ≤ j ∧ j < i + 1 + bs.length ↔ i ≤ j ∧ j < i + (bs.length + 1) := by omega
        simp only [hsame, hj, if_false, hindex, List.getElem?_cons_succ]
      · have hin : ¬(i + 1 ≤ j ∧ j < i + 1 + bs.length) := by omega
        have hin' : ¬(i ≤ j ∧ j < i + (bs.length + 1)) := by omega
        simp only [hin, hin', hj, if_false]

/-- A range read answers the bytes that stand there. -/
theorem readRange_eq_ok {m : Memory} {off : Nat} {bs : List Byte}
    (h : ∀ k, k < bs.length → memRead m (off + k) = bs[k]?) : readRange m off bs.length = .ok bs := by
  induction bs generalizing off with
  | nil => rfl
  | cons b bs ih =>
    have hfirst : memRead m off = some b := h 0 (Nat.zero_lt_succ _)
    have hrest : readRange m (off + 1) bs.length = .ok bs := ih fun k hk => by
      have := h (k + 1) (Nat.succ_lt_succ hk)
      rwa [← Nat.add_assoc, Nat.add_right_comm] at this
    simp [readRange, hfirst, hrest]

/-- Bytes written from index 0 read back as the frame. -/
theorem readRange_writeBytes (m : Memory) (bs : List Byte) : readRange (writeBytes m 0 bs) 0 bs.length = .ok bs :=
  readRange_eq_ok fun k hk => by simp [memRead_writeBytes, hk]

/-- A run goes on from the state its first step ends in. -/
theorem run_of_step {s t : State} (k : Nat) (h : step s = .next t) :
    Host.Core.run core (k + 1) s = Host.Core.run core k t := by
  have hcore : core.step s = .next t := h
  simp only [Host.Core.run, hcore]

/-- The accesses of `FRAME` from index `i` on, one after another. -/
theorem run_frameWrites (s : State) (i : Nat) (bs : List Byte) (v : Word) (rest : List HostEvent)
    (h : i + bs.length ≤ s.params.frameBufBytes) :
    Host.Core.run core (bs.length + 1)
        { s with hostQueue := frameWrites s.params i bs ++ wrReg s.params .frameLen v :: rest } =
      .next { s with hostQueue := rest, frameLen := v, fb := writeBytes s.fb i bs } := by
  induction bs generalizing s i with
  | nil => exact run_of_step 0 (step_wrReg s v (by decide) rest)
  | cons b bs ih =>
    rw [List.length_cons] at h
    have hstep := step_wrByte s b (i := i) (by omega)
      (frameWrites s.params (i + 1) bs ++ wrReg s.params .frameLen v :: rest)
    exact (run_of_step _ hstep).trans (ih { s with fb := memWrite s.fb i b } (i + 1) (by simp only; omega))

/-- Settles O16: after the accesses the buffer is `writeBytes` of the one before, and the frame its range read. -/
theorem frameOpsLoadTheFrame : Obligations.FrameOpsLoadTheFrame := by
  intro s bs rest hfits hlen
  have hrun := run_frameWrites s 0 bs (BitVec.ofNat 32 bs.length) rest (by omega)
  rw [frameOps, List.append_assoc]
  refine ⟨_, hrun, rfl, rfl, ?_, fun j hj => ?_⟩
  · simp only [frameBytes, frameCount, BitVec.toNat_ofNat, Nat.mod_eq_of_lt hlen]
    exact readRange_writeBytes s.fb bs
  · rw [memRead_writeBytes, if_neg (by omega)]

end Sys2Proof.Machine
